-- ==== Sys2Proof/Word.lean ====
section
/-! DEFINITION. The number types of the TPE (00_scope.md R10): unsigned bytes and words, nothing signed.
Arithmetic on them is `BitVec`'s, which wraps as R12 asks. -/

namespace Sys2Proof

/-- A byte (R10). -/
abbrev Byte := BitVec 8

/-- The spec's u16 (R10). -/
abbrev U16 := BitVec 16

/-- The spec's u32 (R10). -/
abbrev U32 := BitVec 32

/-- The spec's u64 (R10). -/
abbrev U64 := BitVec 64

/-- A byte string, indexed from 0 (R11). Names, payloads, blobs and response buffers are byte strings. -/
abbrev Bytes := List Byte

end Sys2Proof
end

