-- ==== Sys2Proof/Config.lean ====
section
/-! DEFINITION. The implementation parameters of 00_scope.md R9, all of them fields of `Params` but the draw GARBAGE, which
comes with each request (log 8). An instance is created with them (70_reset_and_hazards.md R373: "A model takes them as
arguments of its reset state"). `Config.default` holds the source or decided value of every field that has one; an OPEN
field without a default is an opaque constant, of which nothing can be proved (log 5). -/

namespace Sys2Proof

/-- The protocol family of an instance (R2). -/
inductive Family where
  | a
  | b
  deriving DecidableEq, Repr

/-- What the slot byte of 0xA2, 0xA3 and 0xB4 names: `A_SELECTOR` (42_registry.md R195, D15). -/
inductive Selector where
  | slotIndex
  | orderAdded
  deriving DecidableEq, Repr

/-- Byte order of the packed status word: `STATUS_WORD_ORDER` (D25). -/
inductive ByteOrder where
  | bigEndian
  | littleEndian
  deriving DecidableEq, Repr

/-- The four figure categories (10_state.md R41). -/
inductive Category where
  | character
  | playSet
  | ability
  | powerDisc
  deriving DecidableEq, Repr

/-- One entry of the figure catalog (10_state.md R41). The name is a byte string (R181: "byte for byte"). -/
structure CatalogEntry where
  name : Bytes
  category : Category
  uid : Vector Byte 7
  numericId : U16
  variant : Byte
  deriving DecidableEq, Repr

/-- `META_LAYOUT`: byte positions inside the 16-byte metadata block (42_registry.md R202). -/
structure MetaLayout where
  category : Nat
  id : Nat
  variant : Nat
  crc : Nat
  deriving DecidableEq, Repr

/-- `CATEGORY_CODE` (42_registry.md R202). -/
structure CategoryCodes where
  character : Byte
  playSet : Byte
  ability : Byte
  powerDisc : Byte
  deriving DecidableEq, Repr

/-- `STATUS_CODE`: the 2-bit values of the four status codes (10_state.md R33). -/
structure StatusCodes where
  absent : BitVec 2
  present : BitVec 2
  removed : BitVec 2
  added : BitVec 2
  deriving DecidableEq, Repr

/-- `HASH160`: SHA-1 (D3), or another 160-bit hash, of which nothing is known but its number (log 19). -/
inductive HashAlgorithm where
  | sha1
  | other (n : Nat)
  deriving DecidableEq, Repr

/-- `CIPHER128`: AES-128 (D4), or another 128-bit block cipher with a 16-byte key, of which nothing is known but its number
and that decryption undoes encryption (log 19). -/
inductive CipherAlgorithm where
  | aes128
  | other (n : Nat)
  deriving DecidableEq, Repr

/-- `LEN_B`: the required payload length of each Family B command (30_encoding.md R97, D22). -/
structure LengthsB where
  activate : Nat
  ledC : Nat
  ledJ : Nat
  ledL : Nat
  query : Nat
  ready : Nat
  status : Nat
  version : Nat
  write : Nat
  deriving DecidableEq, Repr

/-- The parameters of R9. `qDepth = none` is an unbounded queue (60_exceptions.md R344). -/
structure Params where
  family : Family
  nSlotsA : Nat
  nSlotsB : Nat
  bufLenA : Nat
  bufLenB : Nat
  reportLen : Nat
  kdfConst : Vector Byte 31
  hashAlgorithm : HashAlgorithm
  cipherAlgorithm : CipherAlgorithm
  prngA0 : U32
  prngWarmup : Nat
  scrambleMask : U64
  roleCodeA : Bytes
  aMarker : Byte
  aSelector : Selector
  activationFrame : Vector Byte 24
  aVerifyChecksum : Bool
  uidOffset : Nat
  metaOffset : Nat
  metaLayout : MetaLayout
  categoryCode : CategoryCodes
  crcInit : U32
  crcXorOut : U32
  markers : List (Nat × Byte)
  catalog : List CatalogEntry
  orderInitial : Nat
  orderMax : Nat
  orderResetWhenEmpty : Bool
  qDepth : Option Nat
  lengthsB : LengthsB
  statusCode : StatusCodes
  statusWordOrder : ByteOrder
  bCounterInit : Byte
  dAEcho : Nat
  dAReply : Nat
  dAIdle : Nat
  aIdleFrame : Vector Byte 32
  dBAudio : Nat
  dBStatus : Nat
  dBQueued : Nat
  dBCtrl : Nat
  usbDescriptors : Bytes
  deriving DecidableEq, Repr

namespace Config

/-- The digest of the hash of number `n`, where HASH160 is not SHA-1 (log 19). -/
opaque otherHash : Nat → Bytes → Vector Byte 20

/-- The permutation of blocks that the cipher of number `n` makes with a key, where CIPHER128 is not AES-128, as a list of
exchanges of two blocks: every permutation is one (log 19). -/
opaque otherCipher : Nat → Bytes → List (Vector Byte 16 × Vector Byte 16)

/-- `KDF_CONST` of the default instance: OPEN (D5). -/
opaque kdfConst : Vector Byte 31

/-- `CATALOG` of the default instance: OPEN (D36). -/
opaque catalog : List CatalogEntry

/-- `ORDER_RESET_WHEN_EMPTY` of the default instance: OPEN (D20). -/
opaque orderResetWhenEmpty : Bool

/-- `B_COUNTER_INIT` of the default instance: OPEN draw (D35). -/
opaque bCounterInit : Byte

/-- `D_A_IDLE` of the default instance: OPEN (D17). -/
opaque dAIdle : Nat

/-- `D_B_CTRL` of the default instance: OPEN (D30). -/
opaque dBCtrl : Nat

/-- `USB_DESCRIPTORS` of the default instance: OPEN (D37). -/
opaque usbDescriptors : Bytes

/-- The default instance: the value R9 gives each parameter. DESIGN CHOICE, unsafe (log 5): Family A, and queues
without a bound (`Q_DEPTH` is OPEN). No statement about every state rests on these values. -/
def default : Params where
  family := .a
  nSlotsA := 5
  nSlotsB := 16
  bufLenA := 0x140
  bufLenB := 0x400
  reportLen := 32
  kdfConst := kdfConst
  hashAlgorithm := .sha1
  cipherAlgorithm := .aes128
  prngA0 := 0xF1EA5EED#32
  prngWarmup := 23
  scrambleMask := 0x8E55AA1B3999E8AA#64
  roleCodeA := [0x10#8, 0x20#8, 0x30#8, 0x21#8, 0x31#8]
  aMarker := 0x09#8
  aSelector := .slotIndex
  activationFrame := #v[0xAA#8, 0x15#8, 0x00#8, 0x00#8, 0x0F#8, 0x01#8, 0x00#8, 0x03#8, 0x02#8, 0x09#8, 0x09#8, 0x43#8,
    0x20#8, 0x32#8, 0x62#8, 0x36#8, 0x36#8, 0x4B#8, 0x34#8, 0x99#8, 0x67#8, 0x31#8, 0x93#8, 0x8C#8]
  aVerifyChecksum := false
  uidOffset := 0x00
  metaOffset := 0x10
  metaLayout := ⟨0, 1, 3, 12⟩
  categoryCode := ⟨0x00#8, 0x01#8, 0x02#8, 0x03#8⟩
  crcInit := 0xFFFFFFFF#32
  crcXorOut := 0xFFFFFFFF#32
  markers := []
  catalog := catalog
  orderInitial := 0
  orderMax := 0xFF
  orderResetWhenEmpty := orderResetWhenEmpty
  qDepth := none
  lengthsB := ⟨2, 4, 7, 5, 3, 2, 1, 4, 19⟩
  statusCode := ⟨0, 1, 2, 3⟩
  statusWordOrder := .bigEndian
  bCounterInit := bCounterInit
  dAEcho := 500
  dAReply := 1000
  dAIdle := dAIdle
  aIdleFrame := Vector.replicate 32 0#8
  dBAudio := 1
  dBStatus := 2
  dBQueued := 22
  dBCtrl := dBCtrl
  usbDescriptors := usbDescriptors

end Config

/-- The slot count `N` of the instance (10_state.md R24). -/
def Params.nSlots (c : Params) : Nat :=
  match c.family with
  | .a => c.nSlotsA
  | .b => c.nSlotsB

/-- The buffer length `BUF_LEN` of the instance (10_state.md R26). -/
def Params.bufLen (c : Params) : Nat :=
  match c.family with
  | .a => c.bufLenA
  | .b => c.bufLenB

end Sys2Proof
end

