-- ==== Sys2Proof/Machine/Bytes.lean ====
section
/-! DEFINITION. Byte strings and byte orders: the notation of 00_scope.md R10 to R14. -/

namespace Sys2Proof.Machine

/-- `zeros(n)` (R11). -/
def zeros (n : Nat) : Bytes := List.replicate n 0#8

/-- `pad(buf, n)` (R11): `buf` followed by zeros up to length `n`. R11 defines it for `len(buf) <= n`; a longer `buf`,
which R11 gives no meaning, is cut at `n` (log 15). -/
def pad (buf : Bytes) (n : Nat) : Bytes := (buf ++ zeros n).take n

/-- `buf[i +: n]` (R11). -/
def slice (buf : Bytes) (i n : Nat) : Bytes := (buf.drop i).take n

/-- `sum8(buf)` (R14): the sum of all bytes, modulo 256. -/
def sum8 : Bytes → Byte
  | [] => 0#8
  | b :: bs => b + sum8 bs

/-- The number a byte string spells, its first byte the most significant (R11: be16, be32, be64). -/
def beNat (bs : Bytes) : Nat := bs.foldl (fun acc b => acc * 256 + b.toNat) 0

/-- The `n` bytes of a number, most significant first (R11: tobe16, tobe64). -/
def toBe : Nat → Nat → Bytes
  | 0, _ => []
  | n + 1, v => BitVec.ofNat 8 (v / 256 ^ n) :: toBe n v

/-- `be16` (R11). -/
def be16 (bs : Bytes) : U16 := BitVec.ofNat 16 (beNat bs)

/-- `be32` (R11). -/
def be32 (bs : Bytes) : U32 := BitVec.ofNat 32 (beNat bs)

/-- `be64` (R11). -/
def be64 (bs : Bytes) : U64 := BitVec.ofNat 64 (beNat bs)

/-- `tobe16` (R11). -/
def tobe16 (v : U16) : Bytes := toBe 2 v.toNat

/-- The 4-byte big-endian string of a u32 (R11's notation at 32 bits). -/
def tobe32 (v : U32) : Bytes := toBe 4 v.toNat

/-- The 4-byte little-endian string of a u32 (the byte order R11 names le32). -/
def tole32 (v : U32) : Bytes := (toBe 4 v.toNat).reverse

/-- `tobe64` (R11). -/
def tobe64 (v : U64) : Bytes := toBe 8 v.toNat

/-- `rotl32(x, n)` for 0 < n < 32 (R12). -/
def rotl32 (x : U32) (n : Nat) : U32 := (x <<< n) ||| (x >>> (32 - n))

/-- `bitreverse64(v)` (R12): bit `63 - i` of the result is bit `i` of `v`. -/
def bitreverse64 (v : U64) : U64 := v.reverse

/-- `buf` with the bytes from offset `off` on replaced by `v`; bytes of `v` past the end of `buf` are dropped. The
assignment `blob[off +: n] <- v` of 42_registry.md R201 and R202. -/
def overwrite : Bytes → Nat → Bytes → Bytes
  | [], _, _ => []
  | b :: bs, _, [] => b :: bs
  | _ :: bs, 0, v :: vs => v :: overwrite bs 0 vs
  | b :: bs, n + 1, v :: vs => b :: overwrite bs n (v :: vs)

end Sys2Proof.Machine
end

