-- ==== Sys2Proof/Syntax.lean ====
section
/-! DEFINITION. The instructions of the TPE, one constructor per row of spec/opcode_table.json, and the encoded form in
which a request reaches the core (30_encoding.md R90 to R101). -/

namespace Sys2Proof

/-- What a Family A frame holds beside its command, sequence number and operands (30_encoding.md R90): data bytes the
command does not use, the checksum byte, and payload bytes after it. They matter to the echo only (44_family_a.md R263). -/
structure FrameTail where
  extra : Bytes
  chk : Byte
  trail : Bytes
  deriving DecidableEq, Repr

/-- The instructions: one constructor per row of spec/opcode_table.json, with the rule each row cites. -/
inductive Instr where
  -- Family A commands (format A-frame)
  /-- A_ACTIVATE, 0x80 (R266). -/
  | aActivate (seq : Byte) (t : FrameTail)
  /-- A_SEED, 0x81 (R267); `x` is the scrambled seed. -/
  | aSeed (seq : Byte) (x : U64) (t : FrameTail)
  /-- A_NEXT_RANDOM, 0x83 (R268). -/
  | aNextRandom (seq : Byte) (t : FrameTail)
  /-- A_BLANK_90 (R269). -/
  | aBlank90 (seq : Byte) (t : FrameTail)
  /-- A_BLANK_91 (R270). -/
  | aBlank91 (seq : Byte) (t : FrameTail)
  /-- A_BLANK_92 (R271). -/
  | aBlank92 (seq : Byte) (t : FrameTail)
  /-- A_BLANK_93 (R272). -/
  | aBlank93 (seq : Byte) (t : FrameTail)
  /-- A_BLANK_94 (R273). -/
  | aBlank94 (seq : Byte) (t : FrameTail)
  /-- A_BLANK_95 (R274). -/
  | aBlank95 (seq : Byte) (t : FrameTail)
  /-- A_BLANK_96 (R275). -/
  | aBlank96 (seq : Byte) (t : FrameTail)
  /-- A_PRESENT_FIGURES, 0xA1 (R276). -/
  | aPresentFigures (seq : Byte) (t : FrameTail)
  /-- A_QUERY_BLOCK, 0xA2 (R277): slot selector, block number. -/
  | aQueryBlock (seq sel blk : Byte) (t : FrameTail)
  /-- A_WRITE_BLOCK, 0xA3 (R278): slot selector, block number, 16 data bytes. -/
  | aWriteBlock (seq sel blk : Byte) (v : Bytes) (t : FrameTail)
  /-- A_FIGURE_ID, 0xB4 (R279): slot selector. -/
  | aFigureId (seq sel : Byte) (t : FrameTail)
  /-- A_BLANK_B5 (R280). -/
  | aBlankB5 (seq : Byte) (t : FrameTail)
  -- Family B commands (format B-cmd); `ex` holds the payload bytes after the operands:
  -- none under the default LEN_B
  /-- B_ACTIVATE, 'A' (R302). -/
  | bActivate (arg : Byte) (ex : Bytes := [])
  /-- B_LED_C, 'C' (R304): three colour bytes. -/
  | bLedC (r g b : Byte) (ex : Bytes := [])
  /-- B_LED_J, 'J' (R305): zone selector, five colour and timing bytes. -/
  | bLedJ (zone : Byte) (v : Bytes) (ex : Bytes := [])
  /-- B_LED_L, 'L' (R306): zone selector, three colour bytes. -/
  | bLedL (zone r g b : Byte) (ex : Bytes := [])
  /-- B_QUERY_BLOCK, 'Q' (R307): slot byte, block number. -/
  | bQueryBlock (sb blk : Byte) (ex : Bytes := [])
  /-- B_READY, 'R' (R308): one ignored byte. -/
  | bReady (x : Byte) (ex : Bytes := [])
  /-- B_STATUS, 'S' (R309). -/
  | bStatus (ex : Bytes := [])
  /-- B_VERSION, 'V' (R310): three echoed bytes. -/
  | bVersion (b1 b2 b3 : Byte) (ex : Bytes := [])
  /-- B_WRITE_BLOCK, 'W' (R311): slot byte, block number, 16 data bytes. -/
  | bWriteBlock (sb blk : Byte) (v : Bytes) (ex : Bytes := [])
  -- Poll handlers (port op 0x41)
  /-- A_POLL (R282); the payload is not read. -/
  | aPoll (p : Bytes)
  /-- A_IDLE_POLL (R283). -/
  | aIdlePoll (p : Bytes)
  /-- B_POLL (R320). -/
  | bPoll (p : Bytes)
  /-- B_AUDIO_ECHO (R321). -/
  | bAudioEcho (p : Bytes)
  /-- B_STATUS_FRAME (R323). -/
  | bStatusFrame (p : Bytes)
  /-- B_QUEUED_REPLY (R324). -/
  | bQueuedReply (p : Bytes)
  -- Crypto engine, checksum and CRC32 units
  /-- DeriveKey, op 0x01 (R131): a 7-byte identifier. -/
  | deriveKey (uid : Bytes)
  /-- EncryptBlock, op 0x02 (R134): 16-byte key, 16-byte plaintext. -/
  | encryptBlock (key pt : Bytes)
  /-- DecryptBlock, op 0x03 (R135): 16-byte key, 16-byte ciphertext. -/
  | decryptBlock (key ct : Bytes)
  /-- Checksum, op 0x04 (R130). -/
  | checksum (bs : Bytes)
  /-- Crc32, op 0x05 (R137). -/
  | crc32 (bs : Bytes)
  -- Scramble engine
  /-- GenerateSeed, op 0x10 (R160). -/
  | generateSeed (seed : U32)
  /-- GetNext, op 0x11 (R161). -/
  | getNext
  /-- Scramble, op 0x12 (R162). -/
  | scramble (value garbage : U32)
  /-- Descramble, op 0x13 (R163). -/
  | descramble (x : U64)
  -- Figure catalog
  /-- FindByNumericId, op 0x20 (R180). -/
  | findByNumericId (id : U16)
  /-- FindByName, op 0x21 (R181). -/
  | findByName (name : Bytes)
  /-- AllEntries, op 0x22 (R182). -/
  | allEntries
  -- Registry
  /-- IsActivated, op 0x23 (R185). -/
  | isActivated
  /-- Activate, op 0x24 (R186). -/
  | activate
  /-- Deactivate, op 0x25 (R187). -/
  | deactivate
  /-- GetPresentFigures, op 0x26 (R188). -/
  | getPresentFigures (seq : Byte)
  /-- QueryBlock_A, op 0x27 on Family A (R189): slot selector, block number, sequence number. -/
  | queryBlockA (sel blk seq : Byte)
  /-- QueryBlock_B, op 0x27 on Family B (R190): slot number, block number. -/
  | queryBlockB (slot blk : Byte)
  /-- WriteBlock_A, op 0x28 on Family A (R191): slot selector, block number, 16 data bytes, sequence number. -/
  | writeBlockA (sel blk : Byte) (v : Bytes) (seq : Byte)
  /-- WriteBlock_B, op 0x28 on Family B (R193): slot number, block number, 16 data bytes. -/
  | writeBlockB (slot blk : Byte) (v : Bytes)
  /-- GetFigureIdentifier, op 0x29 (R194): slot selector, sequence number. -/
  | getFigureIdentifier (sel seq : Byte)
  -- Management requests
  /-- LoadFigure_A, op 0x30 on Family A (R196): slot, backing handle, the file's bytes. -/
  | loadFigureA (slot : Byte) (h : Nat) (blob : Bytes)
  /-- LoadFigure_B, op 0x30 on Family B (R197): slot, backing handle, the file's bytes. -/
  | loadFigureB (slot : Byte) (h : Nat) (blob : Bytes)
  /-- RemoveFigure_A, op 0x31 on Family A (R199). -/
  | removeFigureA (slot : Byte)
  /-- RemoveFigure_B, op 0x31 on Family B (R200). -/
  | removeFigureB (slot : Byte)
  /-- CreateFigure, op 0x32 on Family A (R201): target handle, numeric id. -/
  | createFigure (h : Nat) (id : U16)
  /-- CreateFigure_B, op 0x32 on Family B (R203). -/
  | createFigureB (h : Nat) (id : U16)
  -- Host transfer port
  /-- ControlTransfer, op 0x40 (R232). -/
  | controlTransfer (p : Bytes)
  /-- InterruptPoll, op 0x41 (R233). -/
  | interruptPoll (p : Bytes)
  /-- CancelTransfer, op 0x42 (R236). -/
  | cancelTransfer
  /-- BulkTransfer, op 0x43 (R231). -/
  | bulkTransfer (p : Bytes)
  /-- IsochronousTransfer, op 0x44 (R231). -/
  | isochronousTransfer (p : Bytes)
  deriving DecidableEq, Repr

/-- Where a request enters the core. The host transfer port and the management port are the two requesting ports of
00_scope.md R7; `unit` is an internal sub-unit call of R101; `dispatcher` hands a control payload to the family's
dispatcher (R260, R300); the last six are the poll handlers that R233, R282 and R320 call, which share op 0x41 (log 4). -/
inductive Entry where
  | host
  | management
  | unit
  | dispatcher
  | pollA
  | idlePollA
  | pollB
  | audioEchoB
  | statusFrameB
  | queuedReplyB
  deriving DecidableEq, Repr

/-- An encoded request: where it enters and its bytes (for the ports: the op code of R101, then the operands, log 2; for
the dispatcher: the payload of the control transfer). -/
structure Code where
  entry : Entry
  bytes : Bytes
  deriving DecidableEq, Repr

/-- A request as it waits at the core: its code and what the environment supplies with it. `inFlight` is the bit the host
transfer port supplies (10_state.md R39, log 13); `storeAnswer` is the storage port's answer to the StoreWrite the
operation may make, `true` for ok (60_exceptions.md R345, log 9); `garbage` is the draw GARBAGE (R9, log 8). -/
structure Request where
  code : Code
  inFlight : Bool
  storeAnswer : Bool
  garbage : U32
  deriving DecidableEq, Repr

/-- Why bytes decode to no instruction. The dispatcher's reasons end in NoResponse (R261, R281, R301); the ports' reasons
name bytes that are no request of R101. -/
inductive Reject where
  /-- Family A: not well-framed (R91). -/
  | notWellFramed
  /-- Family A with A_VERIFY_CHECKSUM: the checksum byte is wrong (R91). -/
  | badChecksum
  /-- The command byte is in neither family's table (R281, R301). -/
  | unknownCommand
  /-- Family A: `L` below the command's minimum (R92, R261). -/
  | truncated
  /-- Family B: the empty payload (R104). -/
  | emptyPayload
  /-- Family B: the length is not LEN_B (R96, R301). -/
  | wrongLength
  /-- A port: no op code at all. -/
  | emptyRequest
  /-- A port: the op code is not one the port can issue (R101, R353). -/
  | unknownOp
  /-- A port: the operand bytes do not have the op's length (log 2). -/
  | badOperands
  /-- A command was expected (the dispatcher's decoder never gives this). -/
  | notACommand
  deriving DecidableEq, Repr

end Sys2Proof
end

