-- ==== Sys2Proof/Machine/Frames.lean ====
section
/-! DEFINITION. The byte layouts of 30_encoding.md: the Family A frame (R90), the response and notification buffers of
Family A (R93 to R95) and the response buffer of Family B (R99). -/

namespace Sys2Proof.Machine

/-- The bytes of a Family A frame before its checksum (R90): the marker, `L`, the command number, the sequence number,
the operands and the unused data bytes. -/
def framePrefix (cmd seq : Byte) (ops : Bytes) (t : FrameTail) : Bytes :=
  0xFF#8 :: BitVec.ofNat 8 (2 + ops.length + t.extra.length) :: cmd :: seq :: (ops ++ t.extra)

/-- A whole Family A control payload (R90): the frame, then any bytes after its checksum. -/
def aFrame (cmd seq : Byte) (ops : Bytes) (t : FrameTail) : Bytes :=
  framePrefix cmd seq ops t ++ t.chk :: t.trail

/-- `AResp(seq, payload)` (R93), which requires a payload of at most 28 bytes. The model's choice for a longer one,
which only 0xA1 and GetPresentFigures can build and only on an instance of more than 14 Family A slots, which
`Params.wf` refuses: the length byte is the low 8 bits of the length, and the buffer is cut at REPORT_LEN (log 15). -/
def aResp (c : Params) (seq : Byte) (payload : Bytes) : Bytes :=
  let r := 0xAA#8 :: BitVec.ofNat 8 (1 + payload.length) :: seq :: payload
  pad (r ++ [sum8 r]) c.reportLen

/-- `BlankAck(seq)` (44_family_a.md R265). -/
def blankAck (c : Params) (seq : Byte) : Bytes := aResp c seq []

/-- Whether a notification reports a figure added or removed (R95). -/
inductive NotifKind where
  | added
  | removed
  deriving DecidableEq, Repr

/-- The byte `KD` of a notification (R95). -/
def NotifKind.code : NotifKind → Byte
  | .added => 0x00#8
  | .removed => 0x01#8

/-- A Family A notification (R95) with role code `role`, marker `mark` and order byte `order`. -/
def aNotif (c : Params) (role mark order : Byte) (k : NotifKind) : Bytes :=
  let r := [0xAB#8, 0x04#8, role, mark, order, k.code]
  pad (r ++ [sum8 r]) c.reportLen

/-- `BResp(prefix)` (R99). -/
def bResp (c : Params) (head : Bytes) : Bytes := pad head c.reportLen

end Sys2Proof.Machine
end

