-- ==== Sys2Proof/WellFormed.lean ====
section
/-! DEFINITION. When an instruction has an encoding on an instance, and when the parameters of an instance are sound. -/

namespace Sys2Proof

open Sys2Proof.Machine

/-- The frame of a Family A command with `n` operand bytes fits its length byte (30_encoding.md R90), and its checksum
byte is right where the instance checks it (R91). `pre` is the frame up to the checksum byte. -/
def frameOk (c : Params) (n : Nat) (pre : Bytes) (t : FrameTail) : Bool :=
  decide (c.family = .a) && decide (n + t.extra.length ≤ 253) && (!c.aVerifyChecksum || decide (t.chk = sum8 pre))

/-- A Family A command is well-formed when its frame is. -/
def commandOk (c : Params) (cmd seq : Byte) (ops : Bytes) (t : FrameTail) : Bool :=
  frameOk c ops.length (framePrefix cmd seq ops t) t

/-- Operands of the right lengths, a handle that fits its four bytes (log 2), a command of the instance's family, a Family B
payload of its LEN_B (30_encoding.md R96). -/
def WellFormed (c : Params) : Instr → Bool
  | .aActivate seq t => commandOk c 0x80#8 seq [] t
  | .aSeed seq x t => commandOk c 0x81#8 seq (tobe64 x) t
  | .aNextRandom seq t => commandOk c 0x83#8 seq [] t
  | .aBlank90 seq t => commandOk c 0x90#8 seq [] t
  | .aBlank91 seq t => commandOk c 0x91#8 seq [] t
  | .aBlank92 seq t => commandOk c 0x92#8 seq [] t
  | .aBlank93 seq t => commandOk c 0x93#8 seq [] t
  | .aBlank94 seq t => commandOk c 0x94#8 seq [] t
  | .aBlank95 seq t => commandOk c 0x95#8 seq [] t
  | .aBlank96 seq t => commandOk c 0x96#8 seq [] t
  | .aPresentFigures seq t => commandOk c 0xA1#8 seq [] t
  | .aQueryBlock seq sel blk t => commandOk c 0xA2#8 seq [sel, blk] t
  | .aWriteBlock seq sel blk v t => decide (v.length = 16) && commandOk c 0xA3#8 seq (sel :: blk :: v) t
  | .aFigureId seq sel t => commandOk c 0xB4#8 seq [sel] t
  | .aBlankB5 seq t => commandOk c 0xB5#8 seq [] t
  | .bActivate _ ex => decide (c.family = .b) && decide (2 + ex.length = c.lengthsB.activate)
  | .bLedC _ _ _ ex => decide (c.family = .b) && decide (4 + ex.length = c.lengthsB.ledC)
  | .bLedJ _ v ex => decide (c.family = .b) && decide (v.length = 5) && decide (7 + ex.length = c.lengthsB.ledJ)
  | .bLedL _ _ _ _ ex => decide (c.family = .b) && decide (5 + ex.length = c.lengthsB.ledL)
  | .bQueryBlock _ _ ex => decide (c.family = .b) && decide (3 + ex.length = c.lengthsB.query)
  | .bReady _ ex => decide (c.family = .b) && decide (2 + ex.length = c.lengthsB.ready)
  | .bStatus ex => decide (c.family = .b) && decide (1 + ex.length = c.lengthsB.status)
  | .bVersion _ _ _ ex => decide (c.family = .b) && decide (4 + ex.length = c.lengthsB.version)
  | .bWriteBlock _ _ v ex => decide (c.family = .b) && decide (v.length = 16) && decide (19 + ex.length = c.lengthsB.write)
  | .aPoll _ => true
  | .aIdlePoll _ => true
  | .bPoll _ => true
  | .bAudioEcho _ => true
  | .bStatusFrame _ => true
  | .bQueuedReply _ => true
  | .deriveKey uid => decide (uid.length = 7)
  | .encryptBlock key pt => decide (key.length = 16) && decide (pt.length = 16)
  | .decryptBlock key ct => decide (key.length = 16) && decide (ct.length = 16)
  | .checksum _ => true
  | .crc32 _ => true
  | .generateSeed _ => true
  | .getNext => true
  | .scramble _ _ => true
  | .descramble _ => true
  | .findByNumericId _ => true
  | .findByName _ => true
  | .allEntries => true
  | .isActivated => true
  | .activate => true
  | .deactivate => true
  | .getPresentFigures _ => true
  | .queryBlockA _ _ _ => decide (c.family = .a)
  | .queryBlockB _ _ => decide (c.family = .b)
  | .writeBlockA _ _ v _ => decide (c.family = .a) && decide (v.length = 16)
  | .writeBlockB _ _ v => decide (c.family = .b) && decide (v.length = 16)
  | .getFigureIdentifier _ _ => true
  | .loadFigureA _ h _ => decide (c.family = .a) && decide (h < 2 ^ 32)
  | .loadFigureB _ h _ => decide (c.family = .b) && decide (h < 2 ^ 32)
  | .removeFigureA _ => decide (c.family = .a)
  | .removeFigureB _ => decide (c.family = .b)
  | .createFigure h _ => decide (c.family = .a) && decide (h < 2 ^ 32)
  | .createFigureB h _ => decide (c.family = .b) && decide (h < 2 ^ 32)
  | .controlTransfer _ => true
  | .interruptPoll _ => true
  | .cancelTransfer => true
  | .bulkTransfer _ => true
  | .isochronousTransfer _ => true

/-- Every Family B command is long enough for its operands (30_encoding.md R97). -/
def LengthsB.wf (l : LengthsB) : Bool :=
  decide (2 ≤ l.activate) && decide (4 ≤ l.ledC) && decide (7 ≤ l.ledJ) && decide (5 ≤ l.ledL) && decide (3 ≤ l.query) &&
    decide (2 ≤ l.ready) && decide (1 ≤ l.status) && decide (4 ≤ l.version) && decide (19 ≤ l.write)

/-- The fields of the metadata block lie inside its 16 bytes without a common byte, the CRC after the 12 bytes it covers
(42_registry.md R202). -/
def MetaLayout.wf (m : MetaLayout) : Bool :=
  decide (m.category < 12) && decide (m.id + 2 ≤ 12) && decide (m.variant < 12) && decide (m.crc = 12) &&
    decide (m.category ≠ m.variant) && decide (m.category < m.id ∨ m.id + 2 ≤ m.category) &&
    decide (m.variant < m.id ∨ m.id + 2 ≤ m.variant)

/-- How many bits of a mask are set. -/
def popcount64 (m : U64) : Nat := ((List.range 64).filter fun i => m.getLsbD i).length

/-- An instance whose parameters are as the spec needs them: every reply fits its buffer (30_encoding.md R93 to R100: 32
bytes, and at most 28 of payload, two for each Family A slot in the present-figures body), the packed status word has
room (45_family_b.md R325), each Family A slot has a role code (10_state.md R24), the blocks of R183 and R184, the fixed
regions and the markers of a Family A figure lie inside the buffer (20_memory.md R71, R72), the mask has 32 set bits and
PRNG_A0 is not 0 (41_scramble.md R161, R162), an order-added fits a byte of a reply (D20), and the order counter starts
within its range (10_state.md R29). -/
def Params.wf (c : Params) : Bool :=
  decide (32 ≤ c.reportLen) && decide (c.nSlotsA ≤ 14) && decide (c.nSlotsB ≤ 16) &&
    decide (c.roleCodeA.length = c.nSlotsA) && decide (0x140 ≤ c.bufLenA) && decide (0x400 ≤ c.bufLenB) &&
    decide (c.uidOffset + 7 ≤ c.bufLenA) && decide (c.metaOffset + 16 ≤ c.bufLenA) && c.metaLayout.wf &&
    c.markers.all (fun m => decide (m.1 < c.bufLenA)) &&
    c.lengthsB.wf && decide (popcount64 c.scrambleMask = 32) && decide (c.prngA0 ≠ 0#32) && decide (c.orderMax ≤ 0xFF) &&
    decide (c.orderInitial ≤ c.orderMax + 1)

end Sys2Proof
end

