-- ==== Sys2Proof/Decode.lean ====
section
/-! DEFINITION. The decoder, total on any bytes and rejecting by name, then the encoder, both written from 30_encoding.md.
A control payload decodes by the instance's family (R90 to R92, R96 to R98, R102 to R104); a port request by its entry
and op code (R101), with the operand layout of log 2. -/

namespace Sys2Proof

open Sys2Proof.Machine

/-! ## Family A frames -/

/-- A well-framed payload (R91), split into its parts (R90). -/
structure FrameParts where
  cmd : Byte
  seq : Byte
  data : Bytes
  chk : Byte
  trail : Bytes
  deriving DecidableEq, Repr

/-- Frame validity (R91) in the order of its conditions, then the fields of R90. -/
def splitFrame (c : Params) (p : Bytes) : Except Reject FrameParts :=
  let l := (p.getD 1 0#8).toNat
  if p.length < 3 then .error .notWellFramed
  else if p.getD 0 0#8 ≠ 0xFF#8 then .error .notWellFramed
  else if l < 2 then .error .notWellFramed
  else if p.length < 3 + l then .error .notWellFramed
  else if c.aVerifyChecksum = true ∧ p.getD (2 + l) 0#8 ≠ sum8 (p.take (2 + l)) then .error .badChecksum
  else .ok ⟨p.getD 2 0#8, p.getD 3 0#8, slice p 4 (l - 2), p.getD (2 + l) 0#8, p.drop (3 + l)⟩

/-- A command whose operands are the first `n` data bytes: truncated when there are fewer (R92's minimum `L` is
`2 + n`, R261); the data bytes after the operands go to the tail. -/
def withOperands (f : FrameParts) (n : Nat) (mk : Bytes → FrameTail → Instr) : Except Reject Instr :=
  if f.data.length < n then .error .truncated
  else .ok (mk (f.data.take n) ⟨f.data.drop n, f.chk, f.trail⟩)

/-- The command table of R92. -/
def decodeCommandA (f : FrameParts) : Except Reject Instr :=
  if f.cmd = 0x80#8 then withOperands f 0 fun _ t => .aActivate f.seq t
  else if f.cmd = 0x81#8 then withOperands f 8 fun d t => .aSeed f.seq (be64 d) t
  else if f.cmd = 0x83#8 then withOperands f 0 fun _ t => .aNextRandom f.seq t
  else if f.cmd = 0x90#8 then withOperands f 0 fun _ t => .aBlank90 f.seq t
  else if f.cmd = 0x91#8 then withOperands f 0 fun _ t => .aBlank91 f.seq t
  else if f.cmd = 0x92#8 then withOperands f 0 fun _ t => .aBlank92 f.seq t
  else if f.cmd = 0x93#8 then withOperands f 0 fun _ t => .aBlank93 f.seq t
  else if f.cmd = 0x94#8 then withOperands f 0 fun _ t => .aBlank94 f.seq t
  else if f.cmd = 0x95#8 then withOperands f 0 fun _ t => .aBlank95 f.seq t
  else if f.cmd = 0x96#8 then withOperands f 0 fun _ t => .aBlank96 f.seq t
  else if f.cmd = 0xA1#8 then withOperands f 0 fun _ t => .aPresentFigures f.seq t
  else if f.cmd = 0xA2#8 then withOperands f 2 fun d t => .aQueryBlock f.seq (d.getD 0 0#8) (d.getD 1 0#8) t
  else if f.cmd = 0xA3#8 then
    withOperands f 18 fun d t => .aWriteBlock f.seq (d.getD 0 0#8) (d.getD 1 0#8) (d.drop 2) t
  else if f.cmd = 0xB4#8 then withOperands f 1 fun d t => .aFigureId f.seq (d.getD 0 0#8) t
  else if f.cmd = 0xB5#8 then withOperands f 0 fun _ t => .aBlankB5 f.seq t
  else .error .unknownCommand

/-! ## Family B commands -/

/-- `LEN_B[ch]` (R97): the whole payload's length on an instance, or none for a byte that is no command character. -/
def lenB (c : Params) (ch : Byte) : Option Nat :=
  if ch = 0x41#8 then some c.lengthsB.activate
  else if ch = 0x43#8 then some c.lengthsB.ledC
  else if ch = 0x4A#8 then some c.lengthsB.ledJ
  else if ch = 0x4C#8 then some c.lengthsB.ledL
  else if ch = 0x51#8 then some c.lengthsB.query
  else if ch = 0x52#8 then some c.lengthsB.ready
  else if ch = 0x53#8 then some c.lengthsB.status
  else if ch = 0x56#8 then some c.lengthsB.version
  else if ch = 0x57#8 then some c.lengthsB.write
  else none

/-- A command whose operands are the first `n` bytes after the character. The model's choice, on an instance whose LEN_B is
too short for them, which `Params.wf` refuses: the payload is ignored (log 19). -/
def needOperands (n : Nat) (d : Bytes) (i : Instr) : Except Reject Instr :=
  if n ≤ d.length then .ok i else .error .wrongLength

/-- The operands of a Family B command of the right length (R97, R98). -/
def operandsB (ch : Byte) (d : Bytes) : Except Reject Instr :=
  if ch = 0x41#8 then needOperands 1 d (.bActivate (d.getD 0 0#8) (d.drop 1))
  else if ch = 0x43#8 then needOperands 3 d (.bLedC (d.getD 0 0#8) (d.getD 1 0#8) (d.getD 2 0#8) (d.drop 3))
  else if ch = 0x4A#8 then needOperands 6 d (.bLedJ (d.getD 0 0#8) (slice d 1 5) (d.drop 6))
  else if ch = 0x4C#8 then
    needOperands 4 d (.bLedL (d.getD 0 0#8) (d.getD 1 0#8) (d.getD 2 0#8) (d.getD 3 0#8) (d.drop 4))
  else if ch = 0x51#8 then needOperands 2 d (.bQueryBlock (d.getD 0 0#8) (d.getD 1 0#8) (d.drop 2))
  else if ch = 0x52#8 then needOperands 1 d (.bReady (d.getD 0 0#8) (d.drop 1))
  else if ch = 0x53#8 then .ok (.bStatus d)
  else if ch = 0x56#8 then needOperands 3 d (.bVersion (d.getD 0 0#8) (d.getD 1 0#8) (d.getD 2 0#8) (d.drop 3))
  else if ch = 0x57#8 then
    needOperands 18 d (.bWriteBlock (d.getD 0 0#8) (d.getD 1 0#8) (slice d 2 16) (d.drop 18))
  else .error .unknownCommand

/-- A Family B payload (R96, R104): the checks of R300 in their order. -/
def decodeCommandB (c : Params) : Bytes → Except Reject Instr
  | [] => .error .emptyPayload
  | ch :: d =>
    match lenB c ch with
    | none => .error .unknownCommand
    | some n => if d.length + 1 = n then operandsB ch d else .error .wrongLength

/-- The command a control payload holds on an instance (R232). -/
def decodeCommand (c : Params) (p : Bytes) : Except Reject Instr :=
  match c.family with
  | .a =>
    match splitFrame c p with
    | .error e => .error e
    | .ok f => decodeCommandA f
  | .b => decodeCommandB c p

/-! ## Port requests -/

/-- Operands of exactly `n` bytes (log 2). -/
def exactly (n : Nat) (d : Bytes) (mk : Instr) : Except Reject Instr :=
  if d.length = n then .ok mk else .error .badOperands

/-- Operands of at least `n` bytes; the rest is the byte-string operand (log 2). -/
def atLeast (n : Nat) (d : Bytes) (mk : Instr) : Except Reject Instr :=
  if n ≤ d.length then .ok mk else .error .badOperands

/-- The host transfer port's requests (R101, ops 0x40 to 0x44). -/
def decodeHost (op : Byte) (d : Bytes) : Except Reject Instr :=
  if op = 0x40#8 then .ok (.controlTransfer d)
  else if op = 0x41#8 then .ok (.interruptPoll d)
  else if op = 0x42#8 then exactly 0 d .cancelTransfer
  else if op = 0x43#8 then .ok (.bulkTransfer d)
  else if op = 0x44#8 then .ok (.isochronousTransfer d)
  else .error .unknownOp

/-- The management port's requests (R101, ops 0x30 to 0x32); each op has one form per family. The model's choice: the slot
operand is one byte, so no slot number of 256 or more can be asked for (log 2). -/
def decodeManagement (c : Params) (op : Byte) (d : Bytes) : Except Reject Instr :=
  if op = 0x30#8 then
    match c.family with
    | .a => atLeast 5 d (.loadFigureA (d.getD 0 0#8) (beNat (slice d 1 4)) (d.drop 5))
    | .b => atLeast 5 d (.loadFigureB (d.getD 0 0#8) (beNat (slice d 1 4)) (d.drop 5))
  else if op = 0x31#8 then
    match c.family with
    | .a => exactly 1 d (.removeFigureA (d.getD 0 0#8))
    | .b => exactly 1 d (.removeFigureB (d.getD 0 0#8))
  else if op = 0x32#8 then
    match c.family with
    | .a => exactly 6 d (.createFigure (beNat (d.take 4)) (be16 (d.drop 4)))
    | .b => exactly 6 d (.createFigureB (beNat (d.take 4)) (be16 (d.drop 4)))
  else .error .unknownOp

/-- The internal sub-unit calls (R101, ops 0x01 to 0x29). -/
def decodeUnit (c : Params) (op : Byte) (d : Bytes) : Except Reject Instr :=
  if op = 0x01#8 then exactly 7 d (.deriveKey d)
  else if op = 0x02#8 then exactly 32 d (.encryptBlock (d.take 16) (d.drop 16))
  else if op = 0x03#8 then exactly 32 d (.decryptBlock (d.take 16) (d.drop 16))
  else if op = 0x04#8 then .ok (.checksum d)
  else if op = 0x05#8 then .ok (.crc32 d)
  else if op = 0x10#8 then exactly 4 d (.generateSeed (be32 d))
  else if op = 0x11#8 then exactly 0 d .getNext
  else if op = 0x12#8 then exactly 8 d (.scramble (be32 (d.take 4)) (be32 (d.drop 4)))
  else if op = 0x13#8 then exactly 8 d (.descramble (be64 d))
  else if op = 0x20#8 then exactly 2 d (.findByNumericId (be16 d))
  else if op = 0x21#8 then .ok (.findByName d)
  else if op = 0x22#8 then exactly 0 d .allEntries
  else if op = 0x23#8 then exactly 0 d .isActivated
  else if op = 0x24#8 then exactly 0 d .activate
  else if op = 0x25#8 then exactly 0 d .deactivate
  else if op = 0x26#8 then exactly 1 d (.getPresentFigures (d.getD 0 0#8))
  else if op = 0x27#8 then
    match c.family with
    | .a => exactly 3 d (.queryBlockA (d.getD 0 0#8) (d.getD 1 0#8) (d.getD 2 0#8))
    | .b => exactly 2 d (.queryBlockB (d.getD 0 0#8) (d.getD 1 0#8))
  else if op = 0x28#8 then
    match c.family with
    | .a => exactly 19 d (.writeBlockA (d.getD 0 0#8) (d.getD 1 0#8) (slice d 2 16) (d.getD 18 0#8))
    | .b => exactly 18 d (.writeBlockB (d.getD 0 0#8) (d.getD 1 0#8) (d.drop 2))
  else if op = 0x29#8 then exactly 2 d (.getFigureIdentifier (d.getD 0 0#8) (d.getD 1 0#8))
  else .error .unknownOp

/-- A poll handler's request is op 0x41 and the poll's payload. -/
def decodePoll (op : Byte) (i : Instr) : Except Reject Instr :=
  if op = 0x41#8 then .ok i else .error .unknownOp

/-- A request that starts with an op code. Each port issues its own ops and no other (60_exceptions.md R353, log 24). -/
def decodePort (c : Params) (e : Entry) (op : Byte) (d : Bytes) : Except Reject Instr :=
  match e with
  | .host => decodeHost op d
  | .management => decodeManagement c op d
  | .unit => decodeUnit c op d
  | .dispatcher => .error .notACommand
  | .pollA => decodePoll op (.aPoll d)
  | .idlePollA => decodePoll op (.aIdlePoll d)
  | .pollB => decodePoll op (.bPoll d)
  | .audioEchoB => decodePoll op (.bAudioEcho d)
  | .statusFrameB => decodePoll op (.bStatusFrame d)
  | .queuedReplyB => decodePoll op (.bQueuedReply d)

/-- The instruction an encoded request holds on an instance. -/
def decode (c : Params) (k : Code) : Except Reject Instr :=
  if k.entry = .dispatcher then decodeCommand c k.bytes
  else
    match k.bytes with
    | [] => .error .emptyRequest
    | op :: d => decodePort c k.entry op d

/-! ## The encoder -/

/-- The bytes of a port request's handle operand (log 2). -/
def handleBytes (h : Nat) : Bytes := toBe 4 h

/-- A control payload at the dispatcher. -/
def dispatched (p : Bytes) : Code := ⟨.dispatcher, p⟩

/-- The encoded form of an instruction (R90, R97, R101; operands of port requests: log 2). -/
def encode : Instr → Code
  | .aActivate seq t => dispatched (aFrame 0x80#8 seq [] t)
  | .aSeed seq x t => dispatched (aFrame 0x81#8 seq (tobe64 x) t)
  | .aNextRandom seq t => dispatched (aFrame 0x83#8 seq [] t)
  | .aBlank90 seq t => dispatched (aFrame 0x90#8 seq [] t)
  | .aBlank91 seq t => dispatched (aFrame 0x91#8 seq [] t)
  | .aBlank92 seq t => dispatched (aFrame 0x92#8 seq [] t)
  | .aBlank93 seq t => dispatched (aFrame 0x93#8 seq [] t)
  | .aBlank94 seq t => dispatched (aFrame 0x94#8 seq [] t)
  | .aBlank95 seq t => dispatched (aFrame 0x95#8 seq [] t)
  | .aBlank96 seq t => dispatched (aFrame 0x96#8 seq [] t)
  | .aPresentFigures seq t => dispatched (aFrame 0xA1#8 seq [] t)
  | .aQueryBlock seq sel blk t => dispatched (aFrame 0xA2#8 seq [sel, blk] t)
  | .aWriteBlock seq sel blk v t => dispatched (aFrame 0xA3#8 seq (sel :: blk :: v) t)
  | .aFigureId seq sel t => dispatched (aFrame 0xB4#8 seq [sel] t)
  | .aBlankB5 seq t => dispatched (aFrame 0xB5#8 seq [] t)
  | .bActivate arg ex => dispatched (0x41#8 :: arg :: ex)
  | .bLedC r g b ex => dispatched (0x43#8 :: r :: g :: b :: ex)
  | .bLedJ zone v ex => dispatched (0x4A#8 :: zone :: (v ++ ex))
  | .bLedL zone r g b ex => dispatched (0x4C#8 :: zone :: r :: g :: b :: ex)
  | .bQueryBlock sb blk ex => dispatched (0x51#8 :: sb :: blk :: ex)
  | .bReady x ex => dispatched (0x52#8 :: x :: ex)
  | .bStatus ex => dispatched (0x53#8 :: ex)
  | .bVersion b1 b2 b3 ex => dispatched (0x56#8 :: b1 :: b2 :: b3 :: ex)
  | .bWriteBlock sb blk v ex => dispatched (0x57#8 :: sb :: blk :: (v ++ ex))
  | .aPoll p => ⟨.pollA, 0x41#8 :: p⟩
  | .aIdlePoll p => ⟨.idlePollA, 0x41#8 :: p⟩
  | .bPoll p => ⟨.pollB, 0x41#8 :: p⟩
  | .bAudioEcho p => ⟨.audioEchoB, 0x41#8 :: p⟩
  | .bStatusFrame p => ⟨.statusFrameB, 0x41#8 :: p⟩
  | .bQueuedReply p => ⟨.queuedReplyB, 0x41#8 :: p⟩
  | .deriveKey uid => ⟨.unit, 0x01#8 :: uid⟩
  | .encryptBlock key pt => ⟨.unit, 0x02#8 :: (key ++ pt)⟩
  | .decryptBlock key ct => ⟨.unit, 0x03#8 :: (key ++ ct)⟩
  | .checksum bs => ⟨.unit, 0x04#8 :: bs⟩
  | .crc32 bs => ⟨.unit, 0x05#8 :: bs⟩
  | .generateSeed seed => ⟨.unit, 0x10#8 :: tobe32 seed⟩
  | .getNext => ⟨.unit, [0x11#8]⟩
  | .scramble value garbage => ⟨.unit, 0x12#8 :: (tobe32 value ++ tobe32 garbage)⟩
  | .descramble x => ⟨.unit, 0x13#8 :: tobe64 x⟩
  | .findByNumericId id => ⟨.unit, 0x20#8 :: tobe16 id⟩
  | .findByName name => ⟨.unit, 0x21#8 :: name⟩
  | .allEntries => ⟨.unit, [0x22#8]⟩
  | .isActivated => ⟨.unit, [0x23#8]⟩
  | .activate => ⟨.unit, [0x24#8]⟩
  | .deactivate => ⟨.unit, [0x25#8]⟩
  | .getPresentFigures seq => ⟨.unit, [0x26#8, seq]⟩
  | .queryBlockA sel blk seq => ⟨.unit, [0x27#8, sel, blk, seq]⟩
  | .queryBlockB slot blk => ⟨.unit, [0x27#8, slot, blk]⟩
  | .writeBlockA sel blk v seq => ⟨.unit, 0x28#8 :: sel :: blk :: (v ++ [seq])⟩
  | .writeBlockB slot blk v => ⟨.unit, 0x28#8 :: slot :: blk :: v⟩
  | .getFigureIdentifier sel seq => ⟨.unit, [0x29#8, sel, seq]⟩
  | .loadFigureA slot h blob => ⟨.management, 0x30#8 :: slot :: (handleBytes h ++ blob)⟩
  | .loadFigureB slot h blob => ⟨.management, 0x30#8 :: slot :: (handleBytes h ++ blob)⟩
  | .removeFigureA slot => ⟨.management, [0x31#8, slot]⟩
  | .removeFigureB slot => ⟨.management, [0x31#8, slot]⟩
  | .createFigure h id => ⟨.management, 0x32#8 :: (handleBytes h ++ tobe16 id)⟩
  | .createFigureB h id => ⟨.management, 0x32#8 :: (handleBytes h ++ tobe16 id)⟩
  | .controlTransfer p => ⟨.host, 0x40#8 :: p⟩
  | .interruptPoll p => ⟨.host, 0x41#8 :: p⟩
  | .cancelTransfer => ⟨.host, [0x42#8]⟩
  | .bulkTransfer p => ⟨.host, 0x43#8 :: p⟩
  | .isochronousTransfer p => ⟨.host, 0x44#8 :: p⟩

/-! ## Words of the opcode table (log 3) -/

/-- How many operand bytes the first request of a port op takes after the op code, all of them zero in a table word. -/
def tableOperands (op : Byte) : Nat :=
  if op = 0x01#8 then 7
  else if op = 0x02#8 then 32
  else if op = 0x03#8 then 32
  else if op = 0x10#8 then 4
  else if op = 0x12#8 then 8
  else if op = 0x13#8 then 8
  else if op = 0x20#8 then 2
  else if op = 0x26#8 then 1
  else if op = 0x27#8 then 3
  else if op = 0x28#8 then 19
  else if op = 0x29#8 then 2
  else if op = 0x30#8 then 5
  else if op = 0x31#8 then 1
  else if op = 0x32#8 then 6
  else 0

/-- The minimum `L` of a Family A command (R92); none for a byte that is no command number. -/
def minL (cmd : Byte) : Option Nat :=
  if cmd = 0x80#8 ∨ cmd = 0x83#8 ∨ cmd = 0x90#8 ∨ cmd = 0x91#8 ∨ cmd = 0x92#8 ∨ cmd = 0x93#8 ∨ cmd = 0x94#8
      ∨ cmd = 0x95#8 ∨ cmd = 0x96#8 ∨ cmd = 0xA1#8 ∨ cmd = 0xB5#8 then some 2
  else if cmd = 0x81#8 then some 10
  else if cmd = 0xA2#8 then some 4
  else if cmd = 0xA3#8 then some 20
  else if cmd = 0xB4#8 then some 3
  else none

/-- The bytes of a table word of `n` bytes, bit 0 the least significant bit of the first byte. -/
def wordBytes : Nat → Nat → Bytes
  | 0, _ => []
  | n + 1, w => BitVec.ofNat 8 w :: wordBytes n (w / 256)

/-- `n` bytes of `bs`, zeros where it is shorter. -/
def zeroExtend (bs : Bytes) (n : Nat) : Bytes := bs ++ zeros (n - bs.length)

/-- The entry a port op code is issued at (R101, R353). -/
def entryOfOp (op : Byte) : Entry :=
  if op.toNat < 0x30 then .unit else if op.toNat < 0x40 then .management else .host

/-- The family a table word's request needs, where it needs one: the family whose command its low byte is. -/
def tableFamily (w : Nat) : Option Family :=
  let lo := BitVec.ofNat 8 w
  if (minL lo).isSome then some .a else if (lenB Config.default lo).isSome then some .b else none

/-- The request a word of the opcode table stands for (log 3). A 24-bit word whose low byte is a Family A command number
is the table's key `(payload[0] << 16) | (payload[1] << 8) | payload[2]`; its `L` byte, which the table's mask leaves
free, is raised to the command's minimum where it is below, and every byte after the key is zero. Any other word is read
byte by byte from bit 0: a Family B payload of its fixed length where the first byte is a command character, else a port
request. -/
def tableCode (nbits w : Nat) : Code :=
  let lo := BitVec.ofNat 8 w
  match minL lo with
  | some m =>
    let l := max m (w / 256 % 256)
    dispatched (zeroExtend [BitVec.ofNat 8 (w / 65536), BitVec.ofNat 8 l, lo] (3 + l))
  | none =>
    let bs := wordBytes (nbits / 8) w
    match lenB Config.default lo with
    | some n => dispatched (zeroExtend bs n)
    | none => ⟨entryOfOp lo, zeroExtend bs (1 + tableOperands lo)⟩

/-- The instruction the decoder reads from a word of the opcode table, on the default instance of the family the word
needs (log 3). -/
def decodeTableWord (nbits w : Nat) : Option Instr :=
  match decode { Config.default with family := (tableFamily w).getD .a } (tableCode nbits w) with
  | .ok i => some i
  | .error _ => none

end Sys2Proof
end

