-- ==== Sys2Proof/Machine/Memory.lean ====
section
/-! DEFINITION. Plain-data maps: key-sorted association lists, and the byte memory built on them. A slot buffer
(20_memory.md R60, R61) is a memory whose unlisted offsets read 0, the reset value of 10_state.md R26 (log 21). -/

namespace Sys2Proof.Machine

/-- The entry of a key-sorted list at a key. -/
def assocGet {α : Type} : List (Nat × α) → Nat → Option α
  | [], _ => none
  | (k, v) :: m, a => if k = a then some v else assocGet m a

/-- Set the entry at a key, keeping the keys strictly rising. -/
def assocPut {α : Type} : List (Nat × α) → Nat → α → List (Nat × α)
  | [], a, x => [(a, x)]
  | (k, v) :: m, a, x =>
    if a < k then (a, x) :: (k, v) :: m
    else if a = k then (a, x) :: m
    else (k, v) :: assocPut m a x

/-- Remove the entry at a key. -/
def assocErase {α : Type} : List (Nat × α) → Nat → List (Nat × α)
  | [], _ => []
  | (k, v) :: m, a => if k = a then m else (k, v) :: assocErase m a

/-- Every key is above `lo`, and the keys rise strictly. -/
def assocRising {α : Type} : Nat → List (Nat × α) → Bool
  | _, [] => true
  | lo, (k, _) :: m => decide (lo ≤ k) && assocRising (k + 1) m

/-- The canonical form of an association list: keys strictly rising. -/
def assocWf {α : Type} (m : List (Nat × α)) : Bool := assocRising 0 m

/-- A byte memory: (offset, byte) cells, offsets strictly rising, no listed byte equal to what an unlisted one reads as. -/
abbrev Memory := List Host.Cell

/-- What an unlisted offset reads as: 0 (10_state.md R26: "Reset value: all zero bytes"). -/
def unlistedByte : Byte := 0#8

/-- The canonical form of a memory. -/
def Memory.wf (m : Memory) : Bool := assocWf m && m.all fun c => c.2 != unlistedByte

/-- Every listed offset is below `n`. -/
def Memory.below (m : Memory) (n : Nat) : Bool := m.all fun c => decide (c.1 < n)

/-- One byte of a memory. -/
def Memory.get (m : Memory) (a : Nat) : Byte := (assocGet m a).getD unlistedByte

/-- Set one byte, keeping the canonical form. -/
def Memory.put (m : Memory) (a : Nat) (b : Byte) : Memory :=
  if b = unlistedByte then assocErase m a else assocPut m a b

/-- `n` bytes from offset `off`, in index order (20_memory.md R60, R66). -/
def Memory.read (m : Memory) (off : Nat) : Nat → Bytes
  | 0 => []
  | n + 1 => m.get off :: Memory.read m (off + 1) n

/-- Store a byte string from offset `off` on, in index order (20_memory.md R60, R66). -/
def Memory.write (m : Memory) (off : Nat) : Bytes → Memory
  | [] => m
  | b :: bs => Memory.write (m.put off b) (off + 1) bs

/-- The cells of a byte string whose first byte has offset `off`. -/
def Memory.cells (off : Nat) : Bytes → Memory
  | [] => []
  | b :: bs => if b = unlistedByte then Memory.cells (off + 1) bs else (off, b) :: Memory.cells (off + 1) bs

/-- The memory whose bytes are a blob's (20_memory.md R73: "LoadFigure takes the blob as the buffer"). -/
def Memory.ofBytes (bs : Bytes) : Memory := Memory.cells 0 bs

end Sys2Proof.Machine
end

