-- ==== Sys2Proof/Machine/State.lean ====
section
/-! DEFINITION. The state of the TPE (10_state.md), the outcomes that are not a next state, and the state after reset
(10_state.md R48, 70_reset_and_hazards.md R370). Plain data. -/

namespace Sys2Proof.Machine

/-- The four status codes of Family B (10_state.md R33). -/
inductive StatusCode where
  | absent
  | present
  | removed
  | added
  deriving DecidableEq, Repr

/-- One slot (10_state.md R25 to R28, R31, R32). -/
structure Slot where
  /-- `S.slot[i].present` (R25). -/
  present : Bool
  /-- `S.slot[i].data` (R26). -/
  data : Memory
  /-- `S.slot[i].handle` (R27); `none` is the spec's `none`. -/
  handle : Option Nat
  /-- `S.slot[i].order` (R28); `none` is `UNASSIGNED`. -/
  order : Option Nat
  /-- `S.slot[i].status` (R31). -/
  status : StatusCode
  /-- `S.slot[i].squeue` (R32), oldest first. -/
  squeue : List StatusCode
  deriving DecidableEq, Repr

/-- The scramble engine's state (10_state.md R36, R37). -/
structure Prng where
  a : U32
  b : U32
  c : U32
  d : U32
  seeded : Bool
  deriving DecidableEq, Repr

/-- A request to the storage port that an operation made: a `StoreWrite` with its blob and answer, a `StoreRead` with its
answer (R13, R345), or a `close` (R204). -/
inductive StoreCall where
  | write (h : Nat) (blob : Bytes) (ok : Bool)
  | read (h : Nat) (ok : Bool)
  | close (h : Nat)
  deriving DecidableEq, Repr

/-- How an operation ended (00_scope.md R8, 42_registry.md R205, and the value each unit call returns). -/
inductive Result where
  /-- No operation has ended since reset. -/
  | idle
  /-- The result triple `(bytes, expected_count, delay)` of a transfer (R8). -/
  | triple (bytes : Bytes) (count delay : Nat)
  /-- `NoResponse` (R8). -/
  | noResponse
  /-- An operation that returns nothing ended. -/
  | done
  /-- A bit (R185). -/
  | bit (b : Bool)
  /-- A u8 (R130). -/
  | byte (b : Byte)
  /-- A u32 (R137, R161, R163). -/
  | word (w : U32)
  /-- A u64 (R162). -/
  | dword (w : U64)
  /-- A byte string: a key, a block or a response buffer (R131, R134, R135, R188 to R194). -/
  | bytes (bs : Bytes)
  /-- An optional name (R180). -/
  | optName (n : Option Bytes)
  /-- An optional catalog entry (R181). -/
  | optEntry (e : Option CatalogEntry)
  /-- The whole catalog (R182). -/
  | entries (es : List CatalogEntry)
  /-- The name a LoadFigure returns, possibly empty (R205). -/
  | name (n : Bytes)
  /-- `success` (R205, R236). -/
  | success
  /-- `failure` (R205). -/
  | failure
  /-- `busy` (R236). -/
  | busy
  deriving DecidableEq, Repr

/-- The state of the TPE, the instance's parameters, and the model's own environment fields. -/
structure State where
  /-- The instance's parameters (00_scope.md R9, 70_reset_and_hazards.md R373); no operation writes them (R22). -/
  cfg : Params
  /-- `S.activated` (R23). -/
  activated : Bool
  /-- `S.slot[0 .. N-1]` (R24). -/
  slots : List Slot
  /-- `S.order_counter` (R29). -/
  orderCounter : Nat
  /-- `S.notif` (R30), oldest first. -/
  notif : List Bytes
  /-- `S.counter` (R34). -/
  counter : Byte
  /-- `S.led` (R35), keyed by command character × 256 + selector (log 23). -/
  led : List (Nat × Bytes)
  /-- `S.prng` (R36, R37). -/
  prng : Prng
  /-- `S.tq` (R38), oldest first. -/
  tq : List Bytes
  /-- `S.in_flight` (R39). -/
  inFlight : Bool
  /-- The MODEL's field: what is known of the blob behind each handle (20_memory.md R61, R73; log 10). -/
  storage : List (Nat × Bytes)
  /-- The MODEL's field: the storage port's answer to the next StoreWrite (60_exceptions.md R345; log 9). -/
  storeAnswer : Bool
  /-- The MODEL's field: the requests the last operation made of the storage port, in order (log 11). -/
  storeCalls : List StoreCall
  /-- The MODEL's field: the draw GARBAGE for the next 0x83 (00_scope.md R9; log 8). -/
  garbage : U32
  /-- The MODEL's field: the requests that wait, oldest first (00_scope.md R7; log 1). -/
  inbox : List Request
  /-- The MODEL's field: how the last operation ended (00_scope.md R8; log 12). -/
  result : Result
  deriving DecidableEq, Repr

/-- The queue a `QueueOverflow` names (60_exceptions.md R344). -/
inductive Queue where
  | tq
  | notif
  | squeue (slot : Nat)
  deriving DecidableEq, Repr

/-- What a `Refused` names (60_exceptions.md R347). -/
inductive RefusedWhat where
  | transferKind
  | createFigureFamilyB
  deriving DecidableEq, Repr

/-- The model faults of 60_exceptions.md R340. A fault commits no state change and ends the run. -/
inductive Fault where
  /-- Code 1 (R341): raised by GetNext before any GenerateSeed. Safe: the spec gives the read no value. -/
  | unseededPrng
  /-- Code 2 (R342): raised by block addressing; info: the block number. Safe: the spec gives no answer. -/
  | blockOutOfRange (n : Nat)
  /-- Code 3 (R343): raised by slot resolution, load and remove; info: the slot number or selector. Safe. -/
  | slotOutOfRange (n : Nat)
  /-- Code 4 (R344): raised by a push to a full queue; info: the queue. Safe: the spec gives no behaviour. -/
  | queueOverflow (q : Queue)
  /-- Code 5 (R346): raised by LoadFigure (Family A) past ORDER_MAX. Safe: the spec neither wraps nor saturates. -/
  | orderCounterOverflow
  /-- Code 6 (R347): raised by bulk and isochronous transfers and by CreateFigure on Family B; info: which. Safe. -/
  | refused (what : RefusedWhat)
  deriving DecidableEq, Repr

/-- Requests the model gives no meaning. -/
inductive Refusal where
  /-- Raised by exec for an instruction without a meaning; no arm of exec answers it. Safe. -/
  | notModelled (mnemonic : String)
  /-- Raised by an operation of the other family, which "does not exist on an instance" (42_registry.md, R2; log 14). Safe. -/
  | notOnThisFamily
  /-- Raised by a poll handler called where the condition of its row fails (log 4). Safe: the handlers' rules say nothing there. -/
  | handlerNotSelected
  /-- Raised by step for port bytes that are no request of 30_encoding.md R101 (log 2). Safe. -/
  | badRequest (why : Reject)
  deriving DecidableEq, Repr

/-- An empty slot (10_state.md R48). -/
def Slot.empty : Slot where
  present := false
  data := []
  handle := none
  order := none
  status := .absent
  squeue := []

/-- A new instance with parameters `c`, where `files` is known of the backing storage, which survives reset
(10_state.md R48, 70_reset_and_hazards.md R370, R373, 60_exceptions.md R360). DESIGN CHOICE, unsafe: the four PRNG words,
which the spec leaves unspecified, are 0 (log 6). -/
def State.resetWith (c : Params) (files : List (Nat × Bytes)) : State where
  cfg := c
  activated := false
  slots := List.replicate c.nSlots Slot.empty
  orderCounter := c.orderInitial
  notif := []
  counter := c.bCounterInit
  led := []
  prng := ⟨0, 0, 0, 0, false⟩
  tq := []
  inFlight := false
  storage := files
  storeAnswer := true
  storeCalls := []
  garbage := 0
  inbox := []
  result := .idle

/-- The machine right after reset: a new default instance, of whose backing storage nothing is known (log 10). -/
def State.reset : State := State.resetWith Config.default []

end Sys2Proof.Machine
end

