-- ==== Sys2Proof/Machine/Ops.lean ====
section
/-! DEFINITION. The named operations over slots, slot buffers, queues and the storage port (00_scope.md R13), and the ways
an operation ends (R8). The TPE has no trap entry and no trap return (60_exceptions.md R351, R352): the one operation that
stands in their place is `raise`, which ends the run in a fault and commits nothing (R340). -/

namespace Sys2Proof.Machine

/-- The outcome of one core operation. -/
abbrev Out := Host.Outcome State Fault Refusal

/-! ## How an operation ends -/

/-- `raise <Fault>(info)` (R13): the operation's state changes are discarded with it (60_exceptions.md R340). -/
def raise (f : Fault) : Out := .fault f

/-- End an operation with a result. -/
def State.ends (s : State) (r : Result) : State := { s with result := r }

/-- `respond(bytes, count, delay)` (R13), with the count of 43_transfer.md R237. -/
def State.respond (s : State) (bytes : Bytes) (delay : Nat) : State := s.ends (.triple bytes bytes.length delay)

/-- `noresponse` (R13). -/
def State.ignored (s : State) : State := s.ends .noResponse

/-- Run an operation that exists on one family only (42_registry.md: "An operation of the other family does not exist on an
instance", R2; log 14). -/
def onFamily (f : Family) (s : State) (k : Out) : Out :=
  if s.cfg.family = f then k else .refused .notOnThisFamily

/-! ## Slots and slot buffers -/

/-- `S.slot[i]`. -/
def State.slotAt (s : State) (i : Nat) : Slot := s.slots.getD i Slot.empty

/-- Replace `S.slot[i]`. -/
def State.setSlot (s : State) (i : Nat) (x : Slot) : State := { s with slots := s.slots.set i x }

/-- `MemRead((i, off), n)` (20_memory.md R60). -/
def State.memRead (s : State) (i off n : Nat) : Bytes := (s.slotAt i).data.read off n

/-- `MemWrite((i, off), n, v)` (20_memory.md R60). -/
def State.memWrite (s : State) (i off : Nat) (v : Bytes) : State :=
  s.setSlot i { s.slotAt i with data := (s.slotAt i).data.write off v }

/-- No slot holds a figure (42_registry.md R198). -/
def State.allAbsent (s : State) : Bool := s.slots.all fun x => !x.present

/-! ## Queues -/

/-- Whether a queue of `n` entries takes `k` more (R344; no bound: always). -/
def hasRoom (c : Params) (n k : Nat) : Bool :=
  match c.qDepth with
  | none => true
  | some d => decide (n + k ≤ d)

/-- `push(S.tq, e)` (43_transfer.md R234). -/
def pushTq (s : State) (e : Bytes) : Except Fault State :=
  if hasRoom s.cfg s.tq.length 1 then .ok { s with tq := s.tq ++ [e] } else .error (.queueOverflow .tq)

/-- `push(S.notif, e)` (60_exceptions.md R344). -/
def pushNotif (s : State) (e : Bytes) : Except Fault State :=
  if hasRoom s.cfg s.notif.length 1 then .ok { s with notif := s.notif ++ [e] } else .error (.queueOverflow .notif)

/-- Two pushes to `S.slot[i].squeue`: they need two free entries (60_exceptions.md R344). -/
def pushStatus (s : State) (i : Nat) (x y : StatusCode) : Except Fault State :=
  if hasRoom s.cfg (s.slotAt i).squeue.length 2 then
    .ok (s.setSlot i { s.slotAt i with squeue := (s.slotAt i).squeue ++ [x, y] })
  else .error (.queueOverflow (.squeue i))

/-! ## The storage port -/

/-- `StoreWrite(h, buf)` (R13): the answer is the draw supplied with the request (60_exceptions.md R345). An ok write
leaves the blob behind the handle (20_memory.md R73); after a failed one nothing is known of it (log 10). -/
def storeWrite (s : State) (h : Nat) (buf : Bytes) : State × Bool :=
  if s.storeAnswer then
    ({ s with storage := assocPut s.storage h buf, storeCalls := s.storeCalls ++ [.write h buf true] }, true)
  else
    ({ s with storage := assocErase s.storage h, storeCalls := s.storeCalls ++ [.write h buf false] }, false)

/-- `StoreRead(h)` (R13): a request to the storage port, answered by the draw supplied with the request (60_exceptions.md
R345): none on fail, else what is known of the blob behind the handle (log 10). No operation of the TPE calls it: the
pseudocode of LoadFigure takes the blob as an operand (42_registry.md R196, R197). -/
def storeRead (s : State) (h : Nat) : State × Option (Option Bytes) :=
  ({ s with storeCalls := s.storeCalls ++ [.read h s.storeAnswer] },
    if s.storeAnswer then some (assocGet s.storage h) else none)

/-- `close(h)` (42_registry.md R204): cannot fail and writes nothing. -/
def closeHandle (s : State) : Option Nat → State
  | none => s
  | some h => { s with storeCalls := s.storeCalls ++ [.close h] }

/-- `Persisted(i, off, v)` (42_registry.md R192): write the block and, where the slot is present, persist the whole
buffer; a failed StoreWrite puts the old buffer back. A present slot without a handle, which no run reaches, counts as
failed without a call (log 16). -/
def persisted (s : State) (i off : Nat) (v : Bytes) : State × Bool :=
  let s1 := s.memWrite i off v
  if (s.slotAt i).present then
    match (s.slotAt i).handle with
    | none => (s, false)
    | some h =>
      match storeWrite s1 h (s1.memRead i 0 s.cfg.bufLen) with
      | (s2, true) => (s2, true)
      | (s2, false) => (s2.setSlot i (s.slotAt i), false)
  else (s1, false)

/-! ## Commands -/

/-- A Family A control transfer (44_family_a.md R260): run the command on `s`, push its reply, answer with the echo of the
payload `p` (R263). -/
def commandA (p : Bytes) (run : State → Except Fault (State × Bytes)) (s : State) : Out :=
  onFamily .a s <|
    match run s with
    | .error f => raise f
    | .ok (s1, reply) =>
      match pushTq s1 reply with
      | .error f => raise f
      | .ok s2 => .next (s2.respond p s.cfg.dAEcho)

/-- A Family B control transfer (45_family_b.md R300): run the command on `s`, push its reply if it has one, answer with
the payload `p`. -/
def commandB (p : Bytes) (run : State → Except Fault (State × Option Bytes)) (s : State) : Out :=
  onFamily .b s <|
    match run s with
    | .error f => raise f
    | .ok (s1, none) => .next (s1.respond p s.cfg.dBCtrl)
    | .ok (s1, some reply) =>
      match pushTq s1 reply with
      | .error f => raise f
      | .ok s2 => .next (s2.respond p s.cfg.dBCtrl)

end Sys2Proof.Machine
end

