-- ==== Sys2Proof/Machine/Catalog.lean ====
section
/-! DEFINITION. The figure catalog, a read-only table (42_registry.md R180 to R182, 10_state.md R41). -/

namespace Sys2Proof.Machine

/-- The first entry with a numeric id, in table order (R180, R201). -/
def entryById : List CatalogEntry → U16 → Option CatalogEntry
  | [], _ => none
  | e :: es, id => if e.numericId = id then some e else entryById es id

/-- The first entry with a name, equal byte for byte (R181). -/
def entryByName : List CatalogEntry → Bytes → Option CatalogEntry
  | [], _ => none
  | e :: es, n => if e.name = n then some e else entryByName es n

/-- `FindByNumericId(id)` (R180). -/
def findByNumericIdOp (c : Params) (id : U16) : Option Bytes := (entryById c.catalog id).map CatalogEntry.name

/-- FindByNumericId (R180). -/
def execFindByNumericId (id : U16) (s : State) : Out := .next (s.ends (.optName (findByNumericIdOp s.cfg id)))

/-- FindByName (R181). -/
def execFindByName (name : Bytes) (s : State) : Out := .next (s.ends (.optEntry (entryByName s.cfg.catalog name)))

/-- AllEntries (R182). -/
def execAllEntries (s : State) : Out := .next (s.ends (.entries s.cfg.catalog))

end Sys2Proof.Machine
end

