-- ==== Sys2Proof/Machine/Sha1.lean ====
section
/-! DEFINITION. SHA-1, the decided `HASH160` (92_eei_decisions.md D3). PRESUMED, unsafe (log 18): the algorithm's text is FIPS 180-4,
which spec/ names but does not hold; the digests of 95_test_vectors.md V-C9 and V-C10 are its check. -/

namespace Sys2Proof.Machine

/-- The five chaining words of SHA-1. -/
structure Sha1Words where
  a : U32
  b : U32
  c : U32
  d : U32
  e : U32
  deriving DecidableEq, Repr

/-- The initial chaining words. -/
def sha1Init : Sha1Words := ⟨0x67452301#32, 0xEFCDAB89#32, 0x98BADCFE#32, 0x10325476#32, 0xC3D2E1F0#32⟩

/-- The round function of round `t`. -/
def sha1F (t : Nat) (b c d : U32) : U32 :=
  if t < 20 then (b &&& c) ||| (~~~b &&& d)
  else if t < 40 then b ^^^ c ^^^ d
  else if t < 60 then (b &&& c) ||| (b &&& d) ||| (c &&& d)
  else b ^^^ c ^^^ d

/-- The round constant of round `t`. -/
def sha1K (t : Nat) : U32 :=
  if t < 20 then 0x5A827999#32 else if t < 40 then 0x6ED9EBA1#32 else if t < 60 then 0x8F1BBCDC#32 else 0xCA62C1D6#32

/-- The 32-bit words of a block, big-endian, oldest first; `n` words. -/
def sha1Words : Nat → Bytes → List U32
  | 0, _ => []
  | n + 1, bs => be32 (bs.take 4) :: sha1Words n (bs.drop 4)

/-- `n` more words of the message schedule, the list newest first. -/
def sha1Extend : Nat → List U32 → List U32
  | 0, w => w
  | n + 1, w => sha1Extend n (rotl32 (w.getD 2 0 ^^^ w.getD 7 0 ^^^ w.getD 13 0 ^^^ w.getD 15 0) 1 :: w)

/-- The rounds from round `t` on, one per schedule word. -/
def sha1Rounds : Nat → List U32 → Sha1Words → Sha1Words
  | _, [], h => h
  | t, w :: ws, h =>
    sha1Rounds (t + 1) ws
      ⟨rotl32 h.a 5 + sha1F t h.b h.c h.d + h.e + sha1K t + w, h.a, rotl32 h.b 30, h.c, h.d⟩

/-- One 64-byte block. -/
def sha1Block (h : Sha1Words) (block : Bytes) : Sha1Words :=
  let r := sha1Rounds 0 (sha1Extend 64 (sha1Words 16 block).reverse).reverse h
  ⟨h.a + r.a, h.b + r.b, h.c + r.c, h.d + r.d, h.e + r.e⟩

/-- `n` blocks. -/
def sha1Blocks : Nat → Bytes → Sha1Words → Sha1Words
  | 0, _, h => h
  | n + 1, bs, h => sha1Blocks n (bs.drop 64) (sha1Block h (bs.take 64))

/-- The padded message: a 1 bit, zeros, and the bit length as a u64, to a multiple of 64 bytes. -/
def sha1Pad (msg : Bytes) : Bytes :=
  msg ++ 0x80#8 :: (zeros ((119 - msg.length % 64) % 64) ++ toBe 8 (8 * msg.length))

/-- The 20-byte digest of a message. -/
def sha1 (msg : Bytes) : Bytes :=
  let m := sha1Pad msg
  let h := sha1Blocks (m.length / 64) m sha1Init
  tobe32 h.a ++ tobe32 h.b ++ tobe32 h.c ++ tobe32 h.d ++ tobe32 h.e

end Sys2Proof.Machine
end

