-- ==== Sys2Proof/Machine/Crypto.lean ====
section
/-! DEFINITION. The crypto engine, the checksum unit and the CRC32 unit (40_crypto.md R130 to R139). They hold no state
(10_state.md R40) and raise nothing; each call only returns its value. -/

namespace Sys2Proof.Machine

/-- Each 4-byte word with its bytes reversed (R133). -/
def reverseWords : Bytes → Bytes
  | a :: b :: c :: d :: rest => d :: c :: b :: a :: reverseWords rest
  | _ => []

/-- `HASH160(msg)` of the instance (R131, D3): a digest of 20 bytes. -/
def hash160 (c : Params) (msg : Bytes) : Bytes :=
  match c.hashAlgorithm with
  | .sha1 => sha1 msg
  | .other n => (Config.otherHash n msg).toList

/-- Exchange two blocks. -/
def exchangeBlocks (p : Vector Byte 16 × Vector Byte 16) (b : Bytes) : Bytes :=
  if b = p.1.toList then p.2.toList else if b = p.2.toList then p.1.toList else b

/-- A permutation of blocks given as exchanges, the first one first. -/
def permuteBlock (ps : List (Vector Byte 16 × Vector Byte 16)) (b : Bytes) : Bytes :=
  ps.foldl (fun x p => exchangeBlocks p x) b

/-- `CIPHER128.Encrypt(key, plaintext)` of the instance (D4). -/
def cipherEncrypt (c : Params) (key pt : Bytes) : Bytes :=
  match c.cipherAlgorithm with
  | .aes128 => aesEncrypt key pt
  | .other n => permuteBlock (Config.otherCipher n key) pt

/-- `CIPHER128.Decrypt(key, ciphertext)` of the instance: the inverse permutation (R135, R136). -/
def cipherDecrypt (c : Params) (key ct : Bytes) : Bytes :=
  match c.cipherAlgorithm with
  | .aes128 => aesDecrypt key ct
  | .other n => permuteBlock (Config.otherCipher n key).reverse ct

/-- `DeriveKey(uid)` (R131, R132): 31 + 7 bytes hashed, the first 16 digest bytes reassembled. -/
def deriveKeyOp (c : Params) (uid : Bytes) : Bytes := reverseWords ((hash160 c (c.kdfConst.toList ++ uid)).take 16)

/-- `EncryptBlock` (R134): the raw block cipher (R136). -/
def encryptBlockOp (c : Params) (key pt : Bytes) : Bytes := cipherEncrypt c key pt

/-- `DecryptBlock` (R135). -/
def decryptBlockOp (c : Params) (key ct : Bytes) : Bytes := cipherDecrypt c key ct

/-- `n` turns of R137's inner loop. -/
def crcShift : Nat → U32 → U32
  | 0, c => c
  | n + 1, c => crcShift n ((c >>> 1) ^^^ (if c.getLsbD 0 then 0xEDB88320#32 else 0#32))

/-- R137's outer loop. -/
def crcBytes : U32 → Bytes → U32
  | c, [] => c
  | c, x :: bs => crcBytes (crcShift 8 (c ^^^ x.setWidth 32)) bs

/-- `Crc32(bytes)` (R137). -/
def crc32Op (c : Params) (bs : Bytes) : U32 := crcBytes c.crcInit bs ^^^ c.crcXorOut

/-- DeriveKey (R131). -/
def execDeriveKey (uid : Bytes) (s : State) : Out := .next (s.ends (.bytes (deriveKeyOp s.cfg uid)))

/-- EncryptBlock (R134). -/
def execEncryptBlock (key pt : Bytes) (s : State) : Out := .next (s.ends (.bytes (encryptBlockOp s.cfg key pt)))

/-- DecryptBlock (R135). -/
def execDecryptBlock (key ct : Bytes) (s : State) : Out := .next (s.ends (.bytes (decryptBlockOp s.cfg key ct)))

/-- Checksum (R130). -/
def execChecksum (bs : Bytes) (s : State) : Out := .next (s.ends (.byte (sum8 bs)))

/-- Crc32 (R137). -/
def execCrc32 (bs : Bytes) (s : State) : Out := .next (s.ends (.word (crc32Op s.cfg bs)))

end Sys2Proof.Machine
end

