-- ==== Sys2Proof/Machine/Flags.lean ====
section
/-! DEFINITION. The one-bit flags of 10_state.md R42: `S.activated` here, `S.slot[i].present` in the registry's load and
remove, `S.prng.seeded` in the scramble engine. No operation writes a flag as a side effect of arithmetic (R42). -/

namespace Sys2Proof.Machine

/-- `Activate()` (42_registry.md R186). -/
def activateOp (s : State) : State := { s with activated := true }

/-- The resting status of a slot (10_state.md R46): what its presence says. -/
def restingStatus (x : Slot) : StatusCode := if x.present then .present else .absent

/-- Collapse a slot's queued transitions into its resting status (42_registry.md R187). -/
def collapseSlot (x : Slot) : Slot := { x with squeue := [], status := restingStatus x }

/-- `Deactivate()` (42_registry.md R187): in Family B every slot's status queue collapses; in Family A only the flag
changes (D49). -/
def deactivateOp (s : State) : State :=
  match s.cfg.family with
  | .a => { s with activated := false }
  | .b => { s with activated := false, slots := s.slots.map collapseSlot }

end Sys2Proof.Machine
end

