-- ==== Sys2Proof/Machine/Operands.lean ====
section
/-! DEFINITION. Operand forms: block addressing (42_registry.md R183, R184), slot resolution (R195) and the coded fields
of replies. -/

namespace Sys2Proof.Machine

/-- `offA(n)` (R183): block 0 is unit 1, block `n > 0` is unit `4n`, of 20 units of 16 bytes. A block that lies outside the
buffer raises the fault too (20_memory.md R62); none below 20 does in a buffer of the decided length. -/
def offA (c : Params) (n : Byte) : Except Fault Nat :=
  let unit := if n.toNat = 0 then 1 else 4 * n.toNat
  if 20 ≤ unit ∨ c.bufLenA < 16 * unit + 16 then .error (.blockOutOfRange n.toNat) else .ok (16 * unit)

/-- `offB(n)` (R184); a block that lies outside the buffer raises the fault too (20_memory.md R62). -/
def offB (c : Params) (n : Byte) : Except Fault Nat :=
  if 64 ≤ n.toNat ∨ c.bufLenB < 16 * n.toNat + 16 then .error (.blockOutOfRange n.toNat) else .ok (16 * n.toNat)

/-- The first slot that is present with order-added `x` (R195). -/
def orderSlot (x : Nat) : Nat → List Slot → Option Nat
  | _, [] => none
  | i, sl :: rest => if sl.present = true ∧ sl.order = some x then some i else orderSlot x (i + 1) rest

/-- Slot resolution of 0xA2, 0xA3 and 0xB4 (R195): the slot a selector byte names, `none` where no slot has the
order-added it gives. -/
def resolveA (s : State) (x : Byte) : Except Fault (Option Nat) :=
  match s.cfg.aSelector with
  | .slotIndex => if x.toNat < s.cfg.nSlotsA then .ok (some x.toNat) else .error (.slotOutOfRange x.toNat)
  | .orderAdded => .ok (orderSlot x.toNat 0 s.slots)

/-- A Family B slot number must name a slot (R195, 60_exceptions.md R343). -/
def slotB (s : State) (i : Nat) : Except Fault Nat :=
  if i < s.cfg.nSlotsB then .ok i else .error (.slotOutOfRange i)

/-- Slot resolution of 'Q' and 'W' (R195, 30_encoding.md R98): the low nibble of the slot byte. -/
def resolveB (s : State) (sb : Byte) : Except Fault Nat := slotB s (sb &&& 0x0F#8).toNat

/-- The role code of a Family A slot (10_state.md R24). The model's choice, on an instance whose ROLE_CODE_A is too short,
which `Params.wf` refuses: 0 (log 28). -/
def roleCode (c : Params) (i : Nat) : Byte := c.roleCodeA.getD i 0#8

/-- The order-added of a slot as a byte of a reply. A present slot has one; UNASSIGNED, which no run shows, reads 0
(log 16). The model's choice, on an instance with ORDER_MAX above 0xFF, which D20 rules out and `Params.wf` refuses: an
order-added above 255 is cut to its low byte (log 27). -/
def orderByte (x : Option Nat) : Byte := BitVec.ofNat 8 (x.getD 0)

/-- `ANotif(i, kind)` (30_encoding.md R95) for slot `i` with order-added `order`. -/
def slotNotif (c : Params) (i : Nat) (order : Option Nat) (k : NotifKind) : Bytes :=
  aNotif c (roleCode c i) c.aMarker (orderByte order) k

/-- `STATUS_CODE` (10_state.md R33). -/
def StatusCode.code (c : Params) : StatusCode → BitVec 2
  | .absent => c.statusCode.absent
  | .present => c.statusCode.present
  | .removed => c.statusCode.removed
  | .added => c.statusCode.added

/-- `CATEGORY_CODE` (42_registry.md R202). -/
def categoryByte (c : Params) : Category → Byte
  | .character => c.categoryCode.character
  | .playSet => c.categoryCode.playSet
  | .ability => c.categoryCode.ability
  | .powerDisc => c.categoryCode.powerDisc

/-- The key of an LED zone (10_state.md R35, log 23): the pair (command character, selector) as one number. -/
def zoneKey (ch sel : Byte) : Nat := ch.toNat * 256 + sel.toNat

end Sys2Proof.Machine
end

