-- ==== Sys2Proof/Machine/Registry.lean ====
section
/-! DEFINITION. Activation, queries and block access of the figure registry (42_registry.md R185 to R195). Each operation
of the registry returns a response; the unit calls below end with it, the commands queue it. -/

namespace Sys2Proof.Machine

/-- The body of the present-figures reply (R188), for the slots from number `i` on, in the fixed role order. -/
def presentBody (c : Params) : Nat → List Slot → Bytes
  | _, [] => []
  | i, sl :: rest =>
    (if sl.present then [roleCode c i + orderByte sl.order, c.aMarker] else []) ++ presentBody c (i + 1) rest

/-- `GetPresentFigures(seq)` (R188). -/
def getPresentFiguresOp (s : State) (seq : Byte) : Bytes := aResp s.cfg seq (presentBody s.cfg 0 s.slots)

/-- `QueryBlock(s, n, seq)` of Family A (R189) for a resolved slot. -/
def queryBlockOpA (s : State) (slot : Option Nat) (n seq : Byte) : Except Fault Bytes :=
  match offA s.cfg n with
  | .error f => .error f
  | .ok off =>
    match slot with
    | none => .ok (aResp s.cfg seq (0x01#8 :: zeros 16))
    | some i =>
      if (s.slotAt i).present then .ok (aResp s.cfg seq (0x00#8 :: s.memRead i off 16))
      else .ok (aResp s.cfg seq (0x01#8 :: zeros 16))

/-- Resolve the selector, then query the block: the order of checks of R277 and 60_exceptions.md R350. -/
def queryBlockBySelector (s : State) (sel n seq : Byte) : Except Fault Bytes :=
  match resolveA s sel with
  | .error f => .error f
  | .ok slot => queryBlockOpA s slot n seq

/-- `QueryBlock(s, n)` of Family B (R190) for slot number `i`. -/
def queryBlockOpB (s : State) (i : Nat) (n : Byte) : Except Fault Bytes :=
  match offB s.cfg n with
  | .error f => .error f
  | .ok off =>
    if (s.slotAt i).present then
      .ok (bResp s.cfg (0x51#8 :: (0x10#8 ||| BitVec.ofNat 8 i) :: n :: s.memRead i off 16))
    else .ok (bResp s.cfg (0x51#8 :: 0x01#8 :: n :: zeros 16))

/-- `WriteBlock(s, n, v, seq)` of Family A (R191) for a resolved slot. -/
def writeBlockOpA (s : State) (slot : Option Nat) (n : Byte) (v : Bytes) (seq : Byte) : Except Fault (State × Bytes) :=
  match offA s.cfg n with
  | .error f => .error f
  | .ok off =>
    match slot with
    | none => .ok (s, aResp s.cfg seq [0x01#8])
    | some i =>
      match persisted s i off v with
      | (s1, ok) => .ok (s1, aResp s.cfg seq [if ok then 0x00#8 else 0x01#8])

/-- Resolve the selector, then write the block (R278). -/
def writeBlockBySelector (s : State) (sel n : Byte) (v : Bytes) (seq : Byte) : Except Fault (State × Bytes) :=
  match resolveA s sel with
  | .error f => .error f
  | .ok slot => writeBlockOpA s slot n v seq

/-- `WriteBlock(s, n, v)` of Family B (R193) for slot number `i`. -/
def writeBlockOpB (s : State) (i : Nat) (n : Byte) (v : Bytes) : Except Fault (State × Bytes) :=
  match offB s.cfg n with
  | .error f => .error f
  | .ok off =>
    match persisted s i off v with
    | (s1, ok) => .ok (s1, bResp s.cfg [0x57#8, if ok then 0x10#8 ||| BitVec.ofNat 8 i else 0x01#8, n])

/-- `GetFigureIdentifier(s, seq)` (R194) for a resolved slot. Offsets past the buffer, which only an instance that `Params.wf`
refuses has, read 0: the model's choice (log 28). -/
def getFigureIdentifierOp (s : State) (slot : Option Nat) (seq : Byte) : Bytes :=
  match slot with
  | none => aResp s.cfg seq (zeros 7)
  | some i =>
    if (s.slotAt i).present then aResp s.cfg seq (s.memRead i s.cfg.uidOffset 7) else aResp s.cfg seq (zeros 7)

/-- Resolve the selector, then give the identifier (R279). -/
def figureIdentifierBySelector (s : State) (sel seq : Byte) : Except Fault Bytes :=
  match resolveA s sel with
  | .error f => .error f
  | .ok slot => .ok (getFigureIdentifierOp s slot seq)

/-- End a unit call with the response bytes it returns. -/
def returnBytes (s : State) : Except Fault Bytes → Out
  | .error f => raise f
  | .ok r => .next (s.ends (.bytes r))

/-- End a unit call with the state and the response bytes it returns. -/
def returnWith : Except Fault (State × Bytes) → Out
  | .error f => raise f
  | .ok (s1, r) => .next (s1.ends (.bytes r))

/-- IsActivated (R185). -/
def execIsActivated (s : State) : Out := .next (s.ends (.bit s.activated))

/-- Activate (R186). -/
def execActivate (s : State) : Out := .next ((activateOp s).ends .done)

/-- Deactivate (R187). -/
def execDeactivate (s : State) : Out := .next ((deactivateOp s).ends .done)

/-- GetPresentFigures (R188, Family A). -/
def execGetPresentFigures (seq : Byte) (s : State) : Out :=
  onFamily .a s (.next (s.ends (.bytes (getPresentFiguresOp s seq))))

/-- QueryBlock_A (R189). The model's choice: the operand is a selector byte that R195 resolves here, as in 0xA2 (log 17). -/
def execQueryBlockA (sel blk seq : Byte) (s : State) : Out :=
  onFamily .a s (returnBytes s (queryBlockBySelector s sel blk seq))

/-- QueryBlock_B (R190); the operand is a slot number, which must name a slot (R195, log 17). -/
def execQueryBlockB (slot blk : Byte) (s : State) : Out :=
  onFamily .b s <|
    match slotB s slot.toNat with
    | .error f => raise f
    | .ok i => returnBytes s (queryBlockOpB s i blk)

/-- WriteBlock_A (R191). The model's choice: the operand is a selector byte that R195 resolves here, as in 0xA3 (log 17). -/
def execWriteBlockA (sel blk : Byte) (v : Bytes) (seq : Byte) (s : State) : Out :=
  onFamily .a s (returnWith (writeBlockBySelector s sel blk v seq))

/-- WriteBlock_B (R193). -/
def execWriteBlockB (slot blk : Byte) (v : Bytes) (s : State) : Out :=
  onFamily .b s <|
    match slotB s slot.toNat with
    | .error f => raise f
    | .ok i => returnWith (writeBlockOpB s i blk v)

/-- GetFigureIdentifier (R194, Family A). The model's choice: the operand is a selector byte that R195 resolves here, as in
0xB4 (log 17). -/
def execGetFigureIdentifier (sel seq : Byte) (s : State) : Out :=
  onFamily .a s (returnBytes s (figureIdentifierBySelector s sel seq))

end Sys2Proof.Machine
end

