-- ==== Sys2Proof/Machine/ScrambleEngine.lean ====
section
/-! DEFINITION. The scramble engine: the PRNG and the bit-interleave transform (41_scramble.md R160 to R165). -/

namespace Sys2Proof.Machine

/-- One step of the generator (R161) and the word it returns. -/
def prngStep (p : Prng) : Prng × U32 :=
  let t := p.a - rotl32 p.b 27
  let b1 := p.b ^^^ rotl32 p.c 17
  let c1 := p.c + p.d
  let r := b1 + t
  (⟨b1, c1, p.d + t, r, p.seeded⟩, r)

/-- `n` steps, the words discarded. -/
def prngDiscard : Nat → Prng → Prng
  | 0, p => p
  | n + 1, p => prngDiscard n (prngStep p).1

/-- The PRNG right after seeding, before the warm-up (R160). -/
def prngSeeded (c : Params) (seed : U32) : Prng := ⟨c.prngA0, seed, seed, seed, true⟩

/-- `GenerateSeed(seed)` (R160): PRNG_WARMUP outputs are discarded. -/
def generateSeedOp (seed : U32) (s : State) : State :=
  { s with prng := prngDiscard s.cfg.prngWarmup (prngSeeded s.cfg seed) }

/-- `GetNext()` (R161, 60_exceptions.md R341). -/
def getNextOp (s : State) : Except Fault (State × U32) :=
  if s.prng.seeded then .ok ({ s with prng := (prngStep s.prng).1 }, (prngStep s.prng).2) else .error .unseededPrng

/-- R162's loop: mask, value, garbage, result. -/
def scrambleLoop : Nat → U64 → U32 → U32 → U64 → U64
  | 0, _, _, _, r => r
  | n + 1, m, v, g, r =>
    if m.getLsbD 0 then scrambleLoop n (m >>> 1) (v >>> 1) g ((r <<< 1) ||| (v &&& 1#32).setWidth 64)
    else scrambleLoop n (m >>> 1) v (g >>> 1) ((r <<< 1) ||| (g &&& 1#32).setWidth 64)

/-- `Scramble(value, garbage)` (R162). -/
def scrambleOp (c : Params) (v g : U32) : U64 := scrambleLoop 64 c.scrambleMask v g 0#64

/-- R163's loop: mask, input, result. -/
def descrambleLoop : Nat → U64 → U64 → U32 → U32
  | 0, _, _, r => r
  | n + 1, m, x, r =>
    descrambleLoop n (m <<< 1) (x >>> 1) (if m.getLsbD 63 then (r <<< 1) ||| (x &&& 1#64).setWidth 32 else r)

/-- `Descramble(x)` (R163). -/
def descrambleOp (c : Params) (x : U64) : U32 := descrambleLoop 64 c.scrambleMask x 0#32

/-- GenerateSeed (R160). -/
def execGenerateSeed (seed : U32) (s : State) : Out := .next ((generateSeedOp seed s).ends .done)

/-- GetNext (R161). -/
def execGetNext (s : State) : Out :=
  match getNextOp s with
  | .error f => raise f
  | .ok (s1, r) => .next (s1.ends (.word r))

/-- Scramble (R162). -/
def execScramble (v g : U32) (s : State) : Out := .next (s.ends (.dword (scrambleOp s.cfg v g)))

/-- Descramble (R163). -/
def execDescramble (x : U64) (s : State) : Out := .next (s.ends (.word (descrambleOp s.cfg x)))

end Sys2Proof.Machine
end

