-- ==== Sys2Proof/Machine/FamilyA.lean ====
section
/-! DEFINITION. The Family A commands (44_family_a.md R260 to R280). Each is a control transfer: `commandA` runs the
command, queues its reply and echoes the payload. -/

namespace Sys2Proof.Machine

/-- A command that changes nothing and replies a blank acknowledgement (R265). -/
def blankCommand (cmd seq : Byte) (t : FrameTail) (s : State) : Out :=
  commandA (aFrame cmd seq [] t) (fun s => .ok (s, blankAck s.cfg seq)) s

/-- The reply of 0x83 (R268). -/
def nextRandomReply (seq : Byte) (s : State) : Except Fault (State × Bytes) :=
  match getNextOp s with
  | .error f => .error f
  | .ok (s1, r) => .ok (s1, aResp s.cfg seq (tobe64 (scrambleOp s.cfg r s.garbage)))

/-- A command that only reads: its reply, with the state as it was. -/
def readOnly (s : State) : Except Fault Bytes → Except Fault (State × Bytes)
  | .error f => .error f
  | .ok r => .ok (s, r)

/-- 0x80, activate (R266). -/
def execAActivate (seq : Byte) (t : FrameTail) (s : State) : Out :=
  commandA (aFrame 0x80#8 seq [] t)
    (fun s => .ok (activateOp s, pad s.cfg.activationFrame.toList s.cfg.reportLen)) s

/-- 0x81, seed (R267). -/
def execASeed (seq : Byte) (x : U64) (t : FrameTail) (s : State) : Out :=
  commandA (aFrame 0x81#8 seq (tobe64 x) t) (fun s => .ok (generateSeedOp (descrambleOp s.cfg x) s, blankAck s.cfg seq)) s

/-- 0x83, next random (R268). -/
def execANextRandom (seq : Byte) (t : FrameTail) (s : State) : Out :=
  commandA (aFrame 0x83#8 seq [] t) (nextRandomReply seq) s

/-- 0x90, blank (R269). -/
def execABlank90 (seq : Byte) (t : FrameTail) (s : State) : Out := blankCommand 0x90#8 seq t s

/-- 0x91, blank (R270). -/
def execABlank91 (seq : Byte) (t : FrameTail) (s : State) : Out := blankCommand 0x91#8 seq t s

/-- 0x92, blank (R271). -/
def execABlank92 (seq : Byte) (t : FrameTail) (s : State) : Out := blankCommand 0x92#8 seq t s

/-- 0x93, blank (R272). -/
def execABlank93 (seq : Byte) (t : FrameTail) (s : State) : Out := blankCommand 0x93#8 seq t s

/-- 0x94, blank (R273). -/
def execABlank94 (seq : Byte) (t : FrameTail) (s : State) : Out := blankCommand 0x94#8 seq t s

/-- 0x95, blank (R274). -/
def execABlank95 (seq : Byte) (t : FrameTail) (s : State) : Out := blankCommand 0x95#8 seq t s

/-- 0x96, blank (R275). -/
def execABlank96 (seq : Byte) (t : FrameTail) (s : State) : Out := blankCommand 0x96#8 seq t s

/-- 0xA1, present figures (R276). -/
def execAPresentFigures (seq : Byte) (t : FrameTail) (s : State) : Out :=
  commandA (aFrame 0xA1#8 seq [] t) (fun s => .ok (s, getPresentFiguresOp s seq)) s

/-- 0xA2, query block (R277). -/
def execAQueryBlock (seq sel blk : Byte) (t : FrameTail) (s : State) : Out :=
  commandA (aFrame 0xA2#8 seq [sel, blk] t) (fun s => readOnly s (queryBlockBySelector s sel blk seq)) s

/-- 0xA3, write block (R278). -/
def execAWriteBlock (seq sel blk : Byte) (v : Bytes) (t : FrameTail) (s : State) : Out :=
  commandA (aFrame 0xA3#8 seq (sel :: blk :: v) t) (fun s => writeBlockBySelector s sel blk v seq) s

/-- 0xB4, figure identifier (R279). -/
def execAFigureId (seq sel : Byte) (t : FrameTail) (s : State) : Out :=
  commandA (aFrame 0xB4#8 seq [sel] t) (fun s => readOnly s (figureIdentifierBySelector s sel seq)) s

/-- 0xB5, blank (R280). -/
def execABlankB5 (seq : Byte) (t : FrameTail) (s : State) : Out := blankCommand 0xB5#8 seq t s

end Sys2Proof.Machine
end

