-- ==== Sys2Proof/Machine/FamilyB.lean ====
section
/-! DEFINITION. The Family B commands (45_family_b.md R300 to R311). Each is a control transfer: `commandB` runs the
command, queues its reply if it has one and answers with the payload, in which `ex` stands after the operands. -/

namespace Sys2Proof.Machine

/-- Write an LED zone (R303, 10_state.md R35). -/
def setLed (s : State) (ch sel : Byte) (v : Bytes) : State := { s with led := assocPut s.led (zoneKey ch sel) v }

/-- Resolve the slot byte, then query the block (R307). -/
def queryBlockBySlotByte (s : State) (sb blk : Byte) : Except Fault (State × Option Bytes) :=
  match resolveB s sb with
  | .error f => .error f
  | .ok i =>
    match queryBlockOpB s i blk with
    | .error f => .error f
    | .ok r => .ok (s, some r)

/-- Resolve the slot byte, then write the block (R311). -/
def writeBlockBySlotByte (s : State) (sb blk : Byte) (v : Bytes) : Except Fault (State × Option Bytes) :=
  match resolveB s sb with
  | .error f => .error f
  | .ok i =>
    match writeBlockOpB s i blk v with
    | .error f => .error f
    | .ok (s1, r) => .ok (s1, some r)

/-- 'A', activate or deactivate (R302). -/
def execBActivate (arg : Byte) (s : State) (ex : Bytes := []) : Out :=
  commandB (0x41#8 :: arg :: ex)
    (fun s => .ok (if arg ≠ 0x00#8 then activateOp s else deactivateOp s, some (bResp s.cfg [0x41#8, arg, 0xFF#8, 0x77#8]))) s

/-- 'C', colour (R304). -/
def execBLedC (r g b : Byte) (s : State) (ex : Bytes := []) : Out :=
  commandB (0x43#8 :: r :: g :: b :: ex) (fun s => .ok (setLed s 0x43#8 0x00#8 [r, g, b], none)) s

/-- 'J', timed colour (R305). -/
def execBLedJ (zone : Byte) (v : Bytes) (s : State) (ex : Bytes := []) : Out :=
  commandB (0x4A#8 :: zone :: (v ++ ex)) (fun s => .ok (setLed s 0x4A#8 zone v, some (bResp s.cfg [0x4A#8]))) s

/-- 'L', zone colour (R306). -/
def execBLedL (zone r g b : Byte) (s : State) (ex : Bytes := []) : Out :=
  commandB (0x4C#8 :: zone :: r :: g :: b :: ex) (fun s => .ok (setLed s 0x4C#8 zone [r, g, b], none)) s

/-- 'Q', query block (R307). -/
def execBQueryBlock (sb blk : Byte) (s : State) (ex : Bytes := []) : Out :=
  commandB (0x51#8 :: sb :: blk :: ex) (fun s => queryBlockBySlotByte s sb blk) s

/-- 'R', ready check (R308). -/
def execBReady (x : Byte) (s : State) (ex : Bytes := []) : Out :=
  commandB (0x52#8 :: x :: ex) (fun s => .ok (s, some (bResp s.cfg [0x52#8, 0x02#8, 0x1B#8]))) s

/-- 'S', status (R309). -/
def execBStatus (s : State) (ex : Bytes := []) : Out := commandB (0x53#8 :: ex) (fun s => .ok (s, none)) s

/-- 'V', version echo (R310). -/
def execBVersion (b1 b2 b3 : Byte) (s : State) (ex : Bytes := []) : Out :=
  commandB (0x56#8 :: b1 :: b2 :: b3 :: ex) (fun s => .ok (s, some (bResp s.cfg [0x56#8, b1, b2, b3]))) s

/-- 'W', write block (R311). -/
def execBWriteBlock (sb blk : Byte) (v : Bytes) (s : State) (ex : Bytes := []) : Out :=
  commandB (0x57#8 :: sb :: blk :: (v ++ ex)) (fun s => writeBlockBySlotByte s sb blk v) s

end Sys2Proof.Machine
end

