-- ==== Sys2Proof/Machine/Management.lean ====
section
/-! DEFINITION. The management port's requests: LoadFigure, RemoveFigure and CreateFigure (42_registry.md R196 to R205). -/

namespace Sys2Proof.Machine

/-- The numeric id a Family A blob holds (R196): the metadata block decrypted with the key of the cleartext identifier.
The model's choice, on an instance whose META_LAYOUT puts the id past the block's 16 bytes, or whose offsets put the block
or the identifier past the buffer, which `Params.wf` refuses: the bytes past the end are not read, and the id is that of the
shorter string (log 28). -/
def blobId (c : Params) (blob : Bytes) : U16 :=
  let key := deriveKeyOp c (slice blob c.uidOffset 7)
  let plain := decryptBlockOp c key (slice blob c.metaOffset 16)
  be16 (slice plain c.metaLayout.id 2)

/-- The name a Family A load returns (R196): the catalog name of the blob's id, or the empty string. -/
def blobName (c : Params) (blob : Bytes) : Bytes := (findByNumericIdOp c (blobId c blob)).getD []

/-- The slot after a load of `blob` with handle `h`: data, handle and presence (R196, R197). -/
def loadedSlot (x : Slot) (blob : Bytes) (h : Nat) : Slot :=
  { x with present := true, data := Memory.ofBytes blob, handle := some h }

/-- Close the handle of a slot that is being replaced (R196, R197; 10_state.md R27). -/
def closeReplaced (s : State) (i : Nat) : State :=
  if (s.slotAt i).present then closeHandle s (s.slotAt i).handle else s

/-- Assign the order-added of a loaded slot that has none (R196; overflow: 60_exceptions.md R346). -/
def assignOrder (s : State) (i : Nat) : Except Fault State :=
  match (s.slotAt i).order with
  | some _ => .ok s
  | none =>
    if s.cfg.orderMax < s.orderCounter then .error .orderCounterOverflow
    else
      .ok { s.setSlot i { s.slotAt i with order := some s.orderCounter } with orderCounter := s.orderCounter + 1 }

/-- The order counter's reset policy after a removal (R198). -/
def resetOrderWhenEmpty (s : State) : State :=
  if s.cfg.orderResetWhenEmpty && s.allAbsent then { s with orderCounter := s.cfg.orderInitial } else s

/-- The registry part of a Family A load of a blob of the right size (R196): replacement, slot fields, order-added,
notification. -/
def loadOpA (s : State) (i : Nat) (blob : Bytes) (h : Nat) : Except Fault State :=
  let s1 := closeReplaced s i
  let s2 := s1.setSlot i (loadedSlot (s1.slotAt i) blob h)
  match assignOrder s2 i with
  | .error f => .error f
  | .ok s3 => pushNotif s3 (slotNotif s3.cfg i (s3.slotAt i).order .added)

/-- The registry part of a Family B load of a blob of the right size (R197). -/
def loadOpB (s : State) (i : Nat) (blob : Bytes) (h : Nat) : Except Fault State :=
  let s1 := closeReplaced s i
  let s2 := s1.setSlot i (loadedSlot (s1.slotAt i) blob h)
  pushStatus s2 i .added .present

/-- The registry part of a Family A removal from a present slot (R199). -/
def removeOpA (s : State) (i : Nat) : Except Fault State :=
  match pushNotif s (slotNotif s.cfg i (s.slotAt i).order .removed) with
  | .error f => .error f
  | .ok s1 =>
    let s2 := closeHandle s1 (s1.slotAt i).handle
    .ok (resetOrderWhenEmpty
      (s2.setSlot i { s2.slotAt i with present := false, handle := none, order := none }))

/-- The registry part of a Family B removal from a present slot (R200). -/
def removeOpB (s : State) (i : Nat) : Except Fault State :=
  let s1 := closeHandle s (s.slotAt i).handle
  let s2 := s1.setSlot i { s1.slotAt i with present := false, handle := none }
  pushStatus s2 i .removed .absent

/-- `MetaBlock(e)` (R202): the 16-byte plaintext metadata block. The model's choice, on an instance whose META_LAYOUT has
fields that overlap or leave the block, which `Params.wf` refuses: the fields are written in the order category, id,
variant, CRC; the CRC is that of the first 12 bytes before it is written; bytes past the end are dropped (log 28). -/
def metaBlock (c : Params) (e : CatalogEntry) : Bytes :=
  let b0 := overwrite (zeros 16) c.metaLayout.category [categoryByte c e.category]
  let b1 := overwrite b0 c.metaLayout.id (tobe16 e.numericId)
  let b2 := overwrite b1 c.metaLayout.variant [e.variant]
  overwrite b2 c.metaLayout.crc (tobe32 (crc32Op c (b2.take 12)))

/-- The blank encrypted filler: every block from number `u` on, but those of the identifier and of the metadata (R201);
`n` blocks are left. -/
def fillBlocks (c : Params) (fill : Bytes) : Nat → Nat → Bytes → Bytes
  | 0, _, blob => blob
  | n + 1, u, blob =>
    fillBlocks c fill n (u + 1)
      (if u ≠ c.uidOffset / 16 ∧ u ≠ c.metaOffset / 16 then overwrite blob (16 * u) fill else blob)

/-- The tamper and anti-clone markers (R201). -/
def putMarkers : List (Nat × Byte) → Bytes → Bytes
  | [], blob => blob
  | (off, b) :: ms, blob => putMarkers ms (overwrite blob off [b])

/-- The blob a CreateFigure writes for a catalog entry (R201). The model's choice, on an instance whose buffer is too short
for the 20 blocks, the offsets or the markers, which `Params.wf` refuses: bytes past the end are dropped (log 28). -/
def figureBlob (c : Params) (e : CatalogEntry) : Bytes :=
  let key := deriveKeyOp c e.uid.toList
  let blob := overwrite (zeros c.bufLenA) c.uidOffset e.uid.toList
  let blob := overwrite blob c.metaOffset (encryptBlockOp c key (metaBlock c e))
  let fill := encryptBlockOp c key (zeros 16)
  putMarkers c.markers (fillBlocks c fill 20 0 blob)

/-- The state and the result of `CreateFigure(h, id)` (R201). -/
def createFigureOp (s : State) (h : Nat) (id : U16) : State :=
  match entryById s.cfg.catalog id with
  | none => s.ends .failure
  | some e =>
    match storeWrite s h (figureBlob s.cfg e) with
    | (s1, true) => s1.ends .success
    | (s1, false) => s1.ends .failure

/-- LoadFigure_A (R196). -/
def execLoadFigureA (slot : Byte) (h : Nat) (blob : Bytes) (s : State) : Out :=
  onFamily .a s <|
    if s.cfg.nSlotsA ≤ slot.toNat then raise (.slotOutOfRange slot.toNat)
    else if blob.length ≠ s.cfg.bufLenA then .next (s.ends .failure)
    else
      match loadOpA s slot.toNat blob h with
      | .error f => raise f
      | .ok s1 => .next (s1.ends (.name (blobName s.cfg blob)))

/-- LoadFigure_B (R197); the name is always empty (D46). -/
def execLoadFigureB (slot : Byte) (h : Nat) (blob : Bytes) (s : State) : Out :=
  onFamily .b s <|
    if s.cfg.nSlotsB ≤ slot.toNat then raise (.slotOutOfRange slot.toNat)
    else if blob.length ≠ s.cfg.bufLenB then .next (s.ends .failure)
    else
      match loadOpB s slot.toNat blob h with
      | .error f => raise f
      | .ok s1 => .next (s1.ends (.name []))

/-- RemoveFigure_A (R199). -/
def execRemoveFigureA (slot : Byte) (s : State) : Out :=
  onFamily .a s <|
    if s.cfg.nSlotsA ≤ slot.toNat then raise (.slotOutOfRange slot.toNat)
    else if (s.slotAt slot.toNat).present then
      match removeOpA s slot.toNat with
      | .error f => raise f
      | .ok s1 => .next (s1.ends .done)
    else .next (s.ends .done)

/-- RemoveFigure_B (R200). -/
def execRemoveFigureB (slot : Byte) (s : State) : Out :=
  onFamily .b s <|
    if s.cfg.nSlotsB ≤ slot.toNat then raise (.slotOutOfRange slot.toNat)
    else if (s.slotAt slot.toNat).present then
      match removeOpB s slot.toNat with
      | .error f => raise f
      | .ok s1 => .next (s1.ends .done)
    else .next (s.ends .done)

/-- CreateFigure (R201, Family A). -/
def execCreateFigure (h : Nat) (id : U16) (s : State) : Out := onFamily .a s (.next (createFigureOp s h id))

/-- CreateFigure_B (R203): `raise Refused(CreateFigureFamilyB)`. That it does so on a Family A instance too, of which R203 does
not speak, is the model's choice (log 14). -/
def execCreateFigureB (_h : Nat) (_id : U16) (_s : State) : Out := raise (.refused .createFigureFamilyB)

end Sys2Proof.Machine
end

