-- ==== Sys2Proof/Machine/Polls.lean ====
section
/-! DEFINITION. Interrupt polls: the response multiplexer of each family (43_transfer.md R239, 44_family_a.md R282 and
R283, 45_family_b.md R320 to R325). A poll never faults. -/

namespace Sys2Proof.Machine

/-- The idle poll of Family A (R283). The 32 bytes of A_IDLE_FRAME stand in a buffer of REPORT_LEN bytes, which is the count
that R283 gives; where REPORT_LEN is not 32 that is the model's choice (log 19). -/
def idlePollOp (s : State) : State := s.respond (pad s.cfg.aIdleFrame.toList s.cfg.reportLen) s.cfg.dAIdle

/-- The Family A poll (R282): the transfer queue, then the notifications, then the idle frame. -/
def pollOpA (s : State) : State :=
  match s.tq with
  | e :: rest => State.respond { s with tq := rest } e s.cfg.dAReply
  | [] =>
    match s.notif with
    | e :: rest => State.respond { s with notif := rest } e s.cfg.dAReply
    | [] => idlePollOp s

/-- One slot's status queue moves forward one step (R322). -/
def advanceSlot (x : Slot) : Slot :=
  match x.squeue with
  | [] => x
  | q :: rest => { x with status := q, squeue := rest }

/-- The packed status word of the slots from number `i` on (R325). -/
def packWord (c : Params) : Nat → List Slot → U32
  | _, [] => 0#32
  | i, x :: rest => ((x.status.code c).setWidth 32 <<< (2 * i)) + packWord c (i + 1) rest

/-- `Pack` (R325): the word's four bytes in STATUS_WORD_ORDER. -/
def packStatus (c : Params) (slots : List Slot) : Bytes :=
  match c.statusWordOrder with
  | .bigEndian => tobe32 (packWord c 0 slots)
  | .littleEndian => tole32 (packWord c 0 slots)

/-- The frame of R100 for the slots, the counter and the activation flag as they stand. -/
def statusFrame (c : Params) (slots : List Slot) (counter : Byte) (activated : Bool) : Bytes :=
  bResp c (0x53#8 :: (packStatus c slots ++ [counter, if activated then 0x01#8 else 0x00#8]))

/-- The synthesized status frame (R323): advance the slots, build the frame, count it. -/
def statusPollOp (s : State) : State :=
  let slots := s.slots.map advanceSlot
  State.respond { s with slots := slots, counter := s.counter + 1#8 }
    (statusFrame s.cfg slots s.counter s.activated) s.cfg.dBStatus

/-- The Family B poll (R320): audio echo, then a queued reply (R324), then the status frame. -/
def pollOpB (p : Bytes) (s : State) : State :=
  if 32 < p.length then s.respond p s.cfg.dBAudio
  else
    match s.tq with
    | e :: rest => State.respond { s with tq := rest } e s.cfg.dBQueued
    | [] => statusPollOp s

/-- Run a poll handler where the condition of its row holds (log 4). -/
def whenSelected (cond : Bool) (s : State) : Out := if cond then .next s else .refused .handlerNotSelected

/-- A_POLL (R282). -/
def execAPoll (_p : Bytes) (s : State) : Out := onFamily .a s (.next (pollOpA s))

/-- A_IDLE_POLL (R283): a poll that finds both queues empty. -/
def execAIdlePoll (_p : Bytes) (s : State) : Out :=
  onFamily .a s (whenSelected (s.tq.isEmpty && s.notif.isEmpty) (idlePollOp s))

/-- B_POLL (R320). -/
def execBPoll (p : Bytes) (s : State) : Out := onFamily .b s (.next (pollOpB p s))

/-- B_AUDIO_ECHO (R321): a poll longer than 32 bytes. -/
def execBAudioEcho (p : Bytes) (s : State) : Out :=
  onFamily .b s (whenSelected (decide (32 < p.length)) (s.respond p s.cfg.dBAudio))

/-- B_STATUS_FRAME (R323): a poll of at most 32 bytes that finds the transfer queue empty. -/
def execBStatusFrame (p : Bytes) (s : State) : Out :=
  onFamily .b s (whenSelected (decide (p.length ≤ 32) && s.tq.isEmpty) (statusPollOp s))

/-- B_QUEUED_REPLY (R324): a poll of at most 32 bytes that finds the transfer queue not empty. -/
def execBQueuedReply (p : Bytes) (s : State) : Out :=
  onFamily .b s (whenSelected (decide (p.length ≤ 32) && !s.tq.isEmpty) (pollOpB p s))

/-- InterruptPoll (43_transfer.md R233): the family's poll. -/
def execInterruptPoll (p : Bytes) (s : State) : Out :=
  match s.cfg.family with
  | .a => .next (pollOpA s)
  | .b => .next (pollOpB p s)

end Sys2Proof.Machine
end

