-- ==== Sys2Proof/Machine/Transfer.lean ====
section
/-! DEFINITION. The host transfer port (43_transfer.md R230 to R236). -/

namespace Sys2Proof.Machine

/-- The command a dispatcher calls (44_family_a.md R260, 45_family_b.md R300): the rule of the decoded command. The
dispatcher's decoder gives no other instruction. -/
def runCommand : Instr → State → Out
  | .aActivate seq t, s => execAActivate seq t s
  | .aSeed seq x t, s => execASeed seq x t s
  | .aNextRandom seq t, s => execANextRandom seq t s
  | .aBlank90 seq t, s => execABlank90 seq t s
  | .aBlank91 seq t, s => execABlank91 seq t s
  | .aBlank92 seq t, s => execABlank92 seq t s
  | .aBlank93 seq t, s => execABlank93 seq t s
  | .aBlank94 seq t, s => execABlank94 seq t s
  | .aBlank95 seq t, s => execABlank95 seq t s
  | .aBlank96 seq t, s => execABlank96 seq t s
  | .aPresentFigures seq t, s => execAPresentFigures seq t s
  | .aQueryBlock seq sel blk t, s => execAQueryBlock seq sel blk t s
  | .aWriteBlock seq sel blk v t, s => execAWriteBlock seq sel blk v t s
  | .aFigureId seq sel t, s => execAFigureId seq sel t s
  | .aBlankB5 seq t, s => execABlankB5 seq t s
  | .bActivate arg ex, s => execBActivate arg s ex
  | .bLedC r g b ex, s => execBLedC r g b s ex
  | .bLedJ zone v ex, s => execBLedJ zone v s ex
  | .bLedL zone r g b ex, s => execBLedL zone r g b s ex
  | .bQueryBlock sb blk ex, s => execBQueryBlock sb blk s ex
  | .bReady x ex, s => execBReady x s ex
  | .bStatus ex, s => execBStatus s ex
  | .bVersion b1 b2 b3 ex, s => execBVersion b1 b2 b3 s ex
  | .bWriteBlock sb blk v ex, s => execBWriteBlock sb blk v s ex
  | _, _ => .refused (.badRequest .notACommand)

/-- ControlTransfer (R232): the command the payload holds, or NoResponse where it holds none (R261, R281, R301). -/
def execControlTransfer (p : Bytes) (s : State) : Out :=
  match decodeCommand s.cfg p with
  | .error _ => .next s.ignored
  | .ok i => runCommand i s

/-- CancelTransfer (R236). -/
def execCancelTransfer (s : State) : Out := .next (s.ends (if s.inFlight then .busy else .success))

/-- BulkTransfer (R231): `raise Refused(TransferKind)`. -/
def execBulkTransfer (_p : Bytes) (_s : State) : Out := raise (.refused .transferKind)

/-- IsochronousTransfer (R231): `raise Refused(TransferKind)`. -/
def execIsochronousTransfer (_p : Bytes) (_s : State) : Out := raise (.refused .transferKind)

end Sys2Proof.Machine
end

