-- ==== Sys2Proof/Machine/Dispatch.lean ====
section
/-! DEFINITION. One arm per instruction of spec/opcode_table.json, each a direct call of its meaning. -/

namespace Sys2Proof.Machine

def exec (i : Instr) (s : State) : Host.Outcome State Fault Refusal :=
  match i with
  | .aActivate seq t => Sys2Proof.Machine.execAActivate seq t s
  | .aSeed seq x t => Sys2Proof.Machine.execASeed seq x t s
  | .aNextRandom seq t => Sys2Proof.Machine.execANextRandom seq t s
  | .aBlank90 seq t => Sys2Proof.Machine.execABlank90 seq t s
  | .aBlank91 seq t => Sys2Proof.Machine.execABlank91 seq t s
  | .aBlank92 seq t => Sys2Proof.Machine.execABlank92 seq t s
  | .aBlank93 seq t => Sys2Proof.Machine.execABlank93 seq t s
  | .aBlank94 seq t => Sys2Proof.Machine.execABlank94 seq t s
  | .aBlank95 seq t => Sys2Proof.Machine.execABlank95 seq t s
  | .aBlank96 seq t => Sys2Proof.Machine.execABlank96 seq t s
  | .aPresentFigures seq t => Sys2Proof.Machine.execAPresentFigures seq t s
  | .aQueryBlock seq sel blk t => Sys2Proof.Machine.execAQueryBlock seq sel blk t s
  | .aWriteBlock seq sel blk v t => Sys2Proof.Machine.execAWriteBlock seq sel blk v t s
  | .aFigureId seq sel t => Sys2Proof.Machine.execAFigureId seq sel t s
  | .aBlankB5 seq t => Sys2Proof.Machine.execABlankB5 seq t s
  | .bActivate arg ex => Sys2Proof.Machine.execBActivate arg s ex
  | .bLedC r g b ex => Sys2Proof.Machine.execBLedC r g b s ex
  | .bLedJ zone v ex => Sys2Proof.Machine.execBLedJ zone v s ex
  | .bLedL zone r g b ex => Sys2Proof.Machine.execBLedL zone r g b s ex
  | .bQueryBlock sb blk ex => Sys2Proof.Machine.execBQueryBlock sb blk s ex
  | .bReady x ex => Sys2Proof.Machine.execBReady x s ex
  | .bStatus ex => Sys2Proof.Machine.execBStatus s ex
  | .bVersion b1 b2 b3 ex => Sys2Proof.Machine.execBVersion b1 b2 b3 s ex
  | .bWriteBlock sb blk v ex => Sys2Proof.Machine.execBWriteBlock sb blk v s ex
  | .aPoll p => Sys2Proof.Machine.execAPoll p s
  | .aIdlePoll p => Sys2Proof.Machine.execAIdlePoll p s
  | .bPoll p => Sys2Proof.Machine.execBPoll p s
  | .bAudioEcho p => Sys2Proof.Machine.execBAudioEcho p s
  | .bStatusFrame p => Sys2Proof.Machine.execBStatusFrame p s
  | .bQueuedReply p => Sys2Proof.Machine.execBQueuedReply p s
  | .deriveKey uid => Sys2Proof.Machine.execDeriveKey uid s
  | .encryptBlock key pt => Sys2Proof.Machine.execEncryptBlock key pt s
  | .decryptBlock key ct => Sys2Proof.Machine.execDecryptBlock key ct s
  | .checksum bs => Sys2Proof.Machine.execChecksum bs s
  | .crc32 bs => Sys2Proof.Machine.execCrc32 bs s
  | .generateSeed seed => Sys2Proof.Machine.execGenerateSeed seed s
  | .getNext => Sys2Proof.Machine.execGetNext s
  | .scramble value garbage => Sys2Proof.Machine.execScramble value garbage s
  | .descramble x => Sys2Proof.Machine.execDescramble x s
  | .findByNumericId id => Sys2Proof.Machine.execFindByNumericId id s
  | .findByName name => Sys2Proof.Machine.execFindByName name s
  | .allEntries => Sys2Proof.Machine.execAllEntries s
  | .isActivated => Sys2Proof.Machine.execIsActivated s
  | .activate => Sys2Proof.Machine.execActivate s
  | .deactivate => Sys2Proof.Machine.execDeactivate s
  | .getPresentFigures seq => Sys2Proof.Machine.execGetPresentFigures seq s
  | .queryBlockA sel blk seq => Sys2Proof.Machine.execQueryBlockA sel blk seq s
  | .queryBlockB slot blk => Sys2Proof.Machine.execQueryBlockB slot blk s
  | .writeBlockA sel blk v seq => Sys2Proof.Machine.execWriteBlockA sel blk v seq s
  | .writeBlockB slot blk v => Sys2Proof.Machine.execWriteBlockB slot blk v s
  | .getFigureIdentifier sel seq => Sys2Proof.Machine.execGetFigureIdentifier sel seq s
  | .loadFigureA slot h blob => Sys2Proof.Machine.execLoadFigureA slot h blob s
  | .loadFigureB slot h blob => Sys2Proof.Machine.execLoadFigureB slot h blob s
  | .removeFigureA slot => Sys2Proof.Machine.execRemoveFigureA slot s
  | .removeFigureB slot => Sys2Proof.Machine.execRemoveFigureB slot s
  | .createFigure h id => Sys2Proof.Machine.execCreateFigure h id s
  | .createFigureB h id => Sys2Proof.Machine.execCreateFigureB h id s
  | .controlTransfer p => Sys2Proof.Machine.execControlTransfer p s
  | .interruptPoll p => Sys2Proof.Machine.execInterruptPoll p s
  | .cancelTransfer => Sys2Proof.Machine.execCancelTransfer s
  | .bulkTransfer p => Sys2Proof.Machine.execBulkTransfer p s
  | .isochronousTransfer p => Sys2Proof.Machine.execIsochronousTransfer p s

end Sys2Proof.Machine
end

