-- ==== Sys2Proof/Machine/Requests.lean ====
section
/-! DEFINITION. How a request reaches the core: acceptance, rejected bytes, and the placing of an opcode-table word
(logs 1 and 3). -/

namespace Sys2Proof.Machine

/-- Accept a request that stood at the head of the inbox: what the environment supplies with it is taken over, and the
storage calls of the operation before are forgotten (logs 1, 8, 9, 11, 13). -/
def State.accept (s : State) (r : Request) (rest : List Request) : State :=
  { s with inbox := rest, inFlight := r.inFlight, storeAnswer := r.storeAnswer, garbage := r.garbage, storeCalls := [] }

/-- What becomes of bytes that hold no instruction: a control payload is ignored (44_family_a.md R261, R281;
45_family_b.md R301), port bytes are no request (30_encoding.md R101). -/
def rejected (k : Code) (why : Reject) (s : State) : Out :=
  if k.entry = .dispatcher then .next s.ignored else .refused (.badRequest why)

/-- A request with nothing in flight, an ok storage answer and no garbage bits. -/
def plainRequest (k : Code) : Request := ⟨k, false, true, 0⟩

/-- An instance of family `f` with the other parameters of `s` (log 3): unchanged where `s` is one, else with that
family's empty slots. -/
def State.selectFamily (s : State) (f : Family) : State :=
  if s.cfg.family = f then s
  else { s with
    cfg := { s.cfg with family := f }
    slots := List.replicate { s.cfg with family := f }.nSlots Slot.empty }

/-- `s` with a request placed before those that wait. -/
def State.withRequest (s : State) (r : Request) : State := { s with inbox := r :: s.inbox }

/-- `s` with the request of an opcode-table word as the next one, on an instance of the family the word needs (log 3). -/
def State.placeTableWord (s : State) (nbits w : Nat) : State :=
  match tableFamily w with
  | none => s.withRequest (plainRequest (tableCode nbits w))
  | some f => (s.selectFamily f).withRequest (plainRequest (tableCode nbits w))

end Sys2Proof.Machine
end

