-- ==== Sys2Proof/Machine/Step.lean ====
section
/-! DEFINITION. One step of the core: the oldest waiting request is accepted, decoded and run, atomically
(20_memory.md R64, 10_state.md R21). With no request waiting the core waits (70_reset_and_hazards.md R371). -/

namespace Sys2Proof.Machine

/-- Run one request on the state that accepted it. -/
def runRequest (r : Request) (s : State) : Out :=
  match decode s.cfg r.code with
  | .ok i => exec i s
  | .error why => rejected r.code why s

/-- One step. -/
def step (s : State) : Host.Outcome State Fault Refusal :=
  match s.inbox with
  | [] => .next s
  | r :: rest => runRequest r (s.accept r rest)

/-- `s` with an opcode-table word's request where `step` takes its next one (log 3). -/
def State.withFetchWord (s : State) (nbits w : Nat) : State := s.placeTableWord nbits w

end Sys2Proof.Machine
end

