-- ==== Sys2Proof/Safety.lean ====
section
/-! DEFINITION. What counts as a good state and a good run: the invariants of 10_state.md R45 to R47 and the facts they
need, the outcomes of an operation as plain data, and the vocabulary the obligations are written in. -/

namespace Sys2Proof.Machine

/-! ## Outcomes as data -/

/-- The next state of an outcome. -/
def nextOf : Out → Option State
  | .next s => some s
  | .fault _ => none
  | .refused _ => none

/-- The fault of an outcome. -/
def faultOf : Out → Option Fault
  | .next _ => none
  | .fault f => some f
  | .refused _ => none

/-- The refusal of an outcome. -/
def refusalOf : Out → Option Refusal
  | .next _ => none
  | .fault _ => none
  | .refused r => some r

/-- The result the operation ended with. -/
def resultOf (o : Out) : Option Result := (nextOf o).map State.result

/-! ## Invariants -/

/-- R47 and 10_state.md R24: the slot count is fixed, and every slot buffer is a canonical memory of BUF_LEN bytes. -/
def SlotsShaped (s : State) : Prop :=
  s.slots.length = s.cfg.nSlots ∧
    ∀ x ∈ s.slots, Memory.wf x.data = true ∧ Memory.below x.data s.cfg.bufLen = true

/-- A queue of buffers of REPORT_LEN bytes within its capacity (10_state.md R30, R38). -/
def QueueOk (c : Params) (q : List Bytes) : Prop :=
  (∀ e ∈ q, e.length = c.reportLen) ∧ hasRoom c q.length 0 = true

/-- Every queue holds what the spec says it holds, within its capacity (10_state.md R30, R32, R38). -/
def QueuesShaped (s : State) : Prop :=
  QueueOk s.cfg s.tq ∧ QueueOk s.cfg s.notif ∧ ∀ x ∈ s.slots, hasRoom s.cfg x.squeue.length 0 = true

/-- A slot has a backing handle exactly while it is present (10_state.md R27, 42_registry.md R192). -/
def HandlesMatch (s : State) : Prop := ∀ x ∈ s.slots, x.handle.isSome = x.present

/-- 10_state.md R28, R29 and R45 on a Family A instance: a slot has an order-added exactly while it is present, the
order-added is below the counter, and no two slots share one; the counter is at most ORDER_MAX + 1. -/
def OrdersOk (s : State) : Prop :=
  s.cfg.family = .a →
    (∀ x ∈ s.slots, x.order.isSome = x.present) ∧
    (∀ x ∈ s.slots, ∀ o, x.order = some o → o < s.orderCounter) ∧
    (∀ i j, i < s.slots.length → j < s.slots.length → i ≠ j → (s.slotAt i).present = true →
      (s.slotAt j).present = true → (s.slotAt i).order ≠ (s.slotAt j).order) ∧
    s.orderCounter ≤ s.cfg.orderMax + 1

/-- The last code of a slot's status queue, or its status if the queue is empty (10_state.md R46). -/
def terminalStatus (x : Slot) : StatusCode := x.squeue.getLastD x.status

/-- 10_state.md R46 on a Family B instance. -/
def StatusOk (s : State) : Prop :=
  s.cfg.family = .b → ∀ x ∈ s.slots, terminalStatus x = if x.present then .present else .absent

/-- The LED map and the storage record are in canonical form. -/
def MapsCanonical (s : State) : Prop := assocWf s.led = true ∧ assocWf s.storage = true

/-! ## Vocabulary of the obligations -/

/-- The transfer queue takes one more reply (43_transfer.md R234). -/
def CanReply (s : State) : Prop := hasRoom s.cfg s.tq.length 1 = true

/-- `s` after a command that queued `reply` and answered payload `p` after `delay` milliseconds, and did nothing else. -/
def replied (s : State) (p reply : Bytes) (delay : Nat) : State :=
  { s with tq := s.tq ++ [reply], result := .triple p p.length delay }

/-- `s` after a command that queued nothing and answered payload `p`, and did nothing else. -/
def answered (s : State) (p : Bytes) (delay : Nat) : State := { s with result := .triple p p.length delay }

/-- A well-framed payload: the conditions of 30_encoding.md R91. -/
def WellFramed (c : Params) (p : Bytes) : Prop :=
  3 ≤ p.length ∧ p.getD 0 0#8 = 0xFF#8 ∧ 2 ≤ (p.getD 1 0#8).toNat ∧ 3 + (p.getD 1 0#8).toNat ≤ p.length ∧
    (c.aVerifyChecksum = true →
      p.getD (2 + (p.getD 1 0#8).toNat) 0#8 = sum8 (p.take (2 + (p.getD 1 0#8).toNat)))

/-- The Family A command numbers (30_encoding.md R92). -/
def commandsA : List Byte :=
  [0x80#8, 0x81#8, 0x83#8, 0x90#8, 0x91#8, 0x92#8, 0x93#8, 0x94#8, 0x95#8, 0x96#8, 0xA1#8, 0xA2#8, 0xA3#8, 0xB4#8, 0xB5#8]

/-- The offset a Family A block number reaches (42_registry.md R183), for the numbers 0 to 4 that reach one. -/
def blockOffsetA (n : Byte) : Nat := if n = 0#8 then 0x10 else 0x40 * n.toNat

/-- `s` with `n` bytes `v` stored in slot `i`'s buffer from offset `off` (20_memory.md R60). -/
def withBlock (s : State) (i off : Nat) (v : Bytes) : State :=
  s.setSlot i { s.slotAt i with data := (s.slotAt i).data.write off v }

/-- `s` after the write of a block was persisted with an ok StoreWrite (42_registry.md R192): the block is stored, and the
whole buffer is written to the handle. -/
def persistedOk (s : State) (i h off : Nat) (v : Bytes) : State :=
  { withBlock s i off v with
    storage := assocPut s.storage h ((withBlock s i off v).memRead i 0 s.cfg.bufLen)
    storeCalls := s.storeCalls ++ [.write h ((withBlock s i off v).memRead i 0 s.cfg.bufLen) true] }

/-- `s` after the write of a block whose StoreWrite failed (42_registry.md R192): the buffer is as it was; nothing is known
of the blob (log 10). -/
def persistFailed (s : State) (i h off : Nat) (v : Bytes) : State :=
  { s with
    storage := assocErase s.storage h
    storeCalls := s.storeCalls ++ [.write h ((withBlock s i off v).memRead i 0 s.cfg.bufLen) false] }

/-- How a write of block `v` at `(i, off)` ends (42_registry.md R192): the state it leaves and whether it answers success. -/
def BlockWritten (s : State) (i off : Nat) (v : Bytes) (t : State) (ok : Bool) : Prop :=
  ((s.slotAt i).present = false ∧ t = withBlock s i off v ∧ ok = false) ∨
  ∃ h, (s.slotAt i).present = true ∧ (s.slotAt i).handle = some h ∧
    ((s.storeAnswer = true ∧ t = persistedOk s i h off v ∧ ok = true) ∨
      (s.storeAnswer = false ∧ t = persistFailed s i h off v ∧ ok = false))

/-- A present slot has a backing handle (42_registry.md R192: "A present slot always has a handle"). -/
def HasHandle (s : State) (i : Nat) : Prop := (s.slotAt i).present = true → (s.slotAt i).handle.isSome = true

/-- A Family A load of slot `i` can assign an order-added, or has none to assign (42_registry.md R196). -/
def OrderFree (s : State) (i : Nat) : Prop := (s.slotAt i).order.isSome = true ∨ s.orderCounter ≤ s.cfg.orderMax

/-- What of each slot only the management port changes (60_exceptions.md R353). -/
def figures (s : State) : List (Bool × Option Nat × Option Nat) := s.slots.map fun x => (x.present, x.handle, x.order)

/-- What one status poll makes of a slot (45_family_b.md R322). -/
def Advanced (x y : Slot) : Prop :=
  (x.squeue = [] ∧ y = x) ∨ ∃ q rest, x.squeue = q :: rest ∧ y = { x with status := q, squeue := rest }

/-- `c` with every delay 0 (43_transfer.md R238). -/
def noDelays (c : Params) : Params :=
  { c with dAEcho := 0, dAReply := 0, dAIdle := 0, dBAudio := 0, dBStatus := 0, dBQueued := 0, dBCtrl := 0 }

/-- A result without its delay. -/
def Result.noDelay : Result → Result
  | .triple b n _ => .triple b n 0
  | r => r

/-- A state without its delays, in the parameters and in the last result. -/
def State.noDelay (s : State) : State := { s with cfg := noDelays s.cfg, result := s.result.noDelay }

/-- An outcome without its delays. -/
def outNoDelay : Out → Out
  | .next s => .next s.noDelay
  | .fault f => .fault f
  | .refused r => .refused r

/-- How many bits of a scramble mask below position `i` equal `b` (41_scramble.md R162: the `k` of `i_k` and `j_k`). -/
def maskRank (m : U64) (b : Bool) (i : Nat) : Nat := ((List.range i).filter fun j => m.getLsbD j == b).length

/-- Every byte of every slot buffer reads in `t` as in `s`, but the 16 bytes from offset `off` of slot `slot`, if there is
one (20_memory.md R60, R62). -/
def OnlyBlockChanged (s t : State) (slot : Option Nat) (off : Nat) : Prop :=
  ∀ j a, ¬ (slot = some j ∧ off ≤ a ∧ a < off + 16) → (t.slotAt j).data.get a = (s.slotAt j).data.get a

/-- `p` is the PRNG that GenerateSeed of `seed` leaves (41_scramble.md R160): the seeded words, then PRNG_WARMUP outputs of
GetNext drawn and discarded. -/
def WarmedUp (s : State) (seed : U32) (p : Prng) : Prop :=
  ∃ f : Nat → Prng, f 0 = ⟨s.cfg.prngA0, seed, seed, seed, true⟩ ∧
    (∀ k, k < s.cfg.prngWarmup →
      ∃ w, exec .getNext { s with prng := f k } = .next { s with prng := f (k + 1), result := .word w }) ∧
    p = f s.cfg.prngWarmup

/-- One entry of the CRC table (40_crypto.md R137, R138): the loop body, with its polynomial, eight times. -/
def crcTable (n : U32) : U32 :=
  (List.range 8).foldl (fun c _ => if c.getLsbD 0 then (c >>> 1) ^^^ 0xEDB88320#32 else c >>> 1) n

/-- `plain` is the metadata block of a catalog entry (42_registry.md R202), under META_LAYOUT: the category code, the
numeric id, the variant and the CRC of the first 12 bytes, each at its position, every other byte zero. -/
def MetadataBlock (s : State) (e : CatalogEntry) (plain : Bytes) : Prop :=
  let m := s.cfg.metaLayout
  plain.length = 16 ∧ plain.getD m.category 0xFF#8 = categoryByte s.cfg e.category ∧
    slice plain m.id 2 = [e.numericId.extractLsb' 8 8, e.numericId.extractLsb' 0 8] ∧
    plain.getD m.variant 0xFF#8 = e.variant ∧
    (∃ crc : U32, exec (.crc32 (plain.take 12)) s = .next { s with result := .word crc } ∧
      slice plain m.crc 4 =
        [crc.extractLsb' 24 8, crc.extractLsb' 16 8, crc.extractLsb' 8 8, crc.extractLsb' 0 8]) ∧
    ∀ k, k < 16 → k ≠ m.category → k ≠ m.variant → ¬ (m.id ≤ k ∧ k < m.id + 2) → ¬ (m.crc ≤ k ∧ k < m.crc + 4) →
      plain.getD k 0xFF#8 = 0#8

/-- `blob` is the figure of a catalog entry (42_registry.md R201): at each offset the last marker there is, else the
encrypted filler in a block that holds neither the identifier nor the metadata, else the encrypted metadata, else the
identifier, else zero. -/
def FigureBytes (s : State) (e : CatalogEntry) (hidden fill blob : Bytes) : Prop :=
  let c := s.cfg
  blob.length = c.bufLenA ∧
    ∀ a, a < c.bufLenA → blob.getD a 0#8 =
      match c.markers.reverse.find? fun m => m.1 == a with
      | some m => m.2
      | none =>
        if a / 16 < 20 ∧ a / 16 ≠ c.uidOffset / 16 ∧ a / 16 ≠ c.metaOffset / 16 then fill.getD (a % 16) 0#8
        else if c.metaOffset ≤ a ∧ a < c.metaOffset + 16 then hidden.getD (a - c.metaOffset) 0#8
        else if c.uidOffset ≤ a ∧ a < c.uidOffset + 7 then e.uid.toList.getD (a - c.uidOffset) 0#8
        else 0#8

/-! ### Which operand a fault names (60_exceptions.md R342, R343) -/

/-- A Family A instruction with block number `blk`. -/
def HasBlockA (i : Instr) (blk : Byte) : Prop :=
  (∃ seq sel t, i = .aQueryBlock seq sel blk t) ∨ (∃ seq sel v t, i = .aWriteBlock seq sel blk v t) ∨
    (∃ sel seq, i = .queryBlockA sel blk seq) ∨ ∃ sel v seq, i = .writeBlockA sel blk v seq

/-- A Family B instruction with block number `blk`. -/
def HasBlockB (i : Instr) (blk : Byte) : Prop :=
  (∃ sb ex, i = .bQueryBlock sb blk ex) ∨ (∃ sb v ex, i = .bWriteBlock sb blk v ex) ∨
    (∃ slot, i = .queryBlockB slot blk) ∨ ∃ slot v, i = .writeBlockB slot blk v

/-- A Family A instruction with slot selector `x`. -/
def HasSelectorA (i : Instr) (x : Byte) : Prop :=
  (∃ seq blk t, i = .aQueryBlock seq x blk t) ∨ (∃ seq blk v t, i = .aWriteBlock seq x blk v t) ∨
    (∃ seq t, i = .aFigureId seq x t) ∨ (∃ blk seq, i = .queryBlockA x blk seq) ∨
    (∃ blk v seq, i = .writeBlockA x blk v seq) ∨ ∃ seq, i = .getFigureIdentifier x seq

/-- A management request of Family A with slot number `x`. -/
def HasSlotA (i : Instr) (x : Byte) : Prop := (∃ h blob, i = .loadFigureA x h blob) ∨ i = .removeFigureA x

/-- A Family B command with slot byte `sb`, of which the low nibble is the slot number. -/
def HasSlotByteB (i : Instr) (sb : Byte) : Prop :=
  (∃ blk ex, i = .bQueryBlock sb blk ex) ∨ ∃ blk v ex, i = .bWriteBlock sb blk v ex

/-- A unit call or management request of Family B with slot number `x`. -/
def HasSlotB (i : Instr) (x : Byte) : Prop :=
  (∃ blk, i = .queryBlockB x blk) ∨ (∃ blk v, i = .writeBlockB x blk v) ∨ (∃ h blob, i = .loadFigureB x h blob) ∨
    i = .removeFigureB x

end Sys2Proof.Machine
end

