-- ==== Sys2Proof/Certificates/Slice0/Obligations.lean ====
section
/-! DEFINITION. The statements for the provers, from the numbered rules of spec/. "The model's choice" marks a clause that
rests on a log entry and not on a rule. -/

open Sys2Proof Sys2Proof.Machine

/-! ## Encoding -/

/-- Every well-formed instruction decodes from its encoded form, with every operand at every value (30_encoding.md R90,
R92, R96 to R98, R101; operand bytes of port requests and handles of four bytes: the model's choice, log 2). The bytes
after the operands of a Family B command, none under the default LEN_B, are the model's choice (log 19), and so are the
poll handlers' entries (log 4). -/
def Obligations.DecodeOfEncode : Prop :=
  ∀ (c : Params) (i : Instr), WellFormed c i = true → decode c (encode i) = .ok i

/-- A request that decodes is the encoded form of what it decodes to, so no bit of it is dropped, and what it decodes to
is well-formed (R90 to R92, R97, R101, R263; log 2). A Family B command whose LEN_B is longer than its operands holds
the bytes after them: the model's choice (log 19). -/
def Obligations.EncodeOfDecode : Prop :=
  ∀ (c : Params) (k : Code) (i : Instr), decode c k = .ok i → encode i = k ∧ WellFormed c i = true

/-- Words of 95_test_vectors.md, written out byte by byte, decode to the instructions they stand for (V-A1, V-A2, V-A14,
V-A21, V-B1, V-B6, V-B8), under the decided LEN_B. The words at the management port, the host port and a sub-unit are in no
vector: their op codes are those of R101; their operand bytes (log 2) and the unit entry (log 24) are the model's choice. -/
def Obligations.SampleWordsDecode : Prop :=
  ∀ c : Params, c.aVerifyChecksum = false → c.lengthsB = ⟨2, 4, 7, 5, 3, 2, 1, 4, 19⟩ →
    (c.family = .a →
      decode c ⟨.dispatcher, [0xFF#8, 0x02#8, 0x80#8, 0x01#8, 0x82#8]⟩ = .ok (.aActivate 0x01#8 ⟨[], 0x82#8, []⟩) ∧
      decode c ⟨.dispatcher, [0xFF#8, 0x0A#8, 0x81#8, 0x02#8, 0x01#8, 0x16#8, 0x18#8, 0x88#8, 0x10#8, 0x50#8, 0x20#8,
        0x40#8, 0x03#8]⟩ = .ok (.aSeed 0x02#8 0x0116188810502040#64 ⟨[], 0x03#8, []⟩) ∧
      decode c ⟨.dispatcher, [0xFF#8, 0x04#8, 0xA2#8, 0x04#8, 0x00#8, 0x03#8, 0xAC#8]⟩ =
        .ok (.aQueryBlock 0x04#8 0x00#8 0x03#8 ⟨[], 0xAC#8, []⟩) ∧
      decode c ⟨.dispatcher, [0xFF#8, 0x03#8, 0xB4#8, 0x05#8, 0x00#8, 0xBB#8]⟩ =
        .ok (.aFigureId 0x05#8 0x00#8 ⟨[], 0xBB#8, []⟩) ∧
      decode c ⟨.management, [0x31#8, 0x01#8]⟩ = .ok (.removeFigureA 0x01#8)) ∧
    (c.family = .b →
      decode c ⟨.dispatcher, [0x41#8, 0x01#8]⟩ = .ok (.bActivate 0x01#8 []) ∧
      decode c ⟨.dispatcher, [0x4A#8, 0x00#8, 0xFF#8, 0x00#8, 0x00#8, 0x00#8, 0x10#8]⟩ =
        .ok (.bLedJ 0x00#8 [0xFF#8, 0x00#8, 0x00#8, 0x00#8, 0x10#8] []) ∧
      decode c ⟨.dispatcher, [0x51#8, 0x12#8, 0x05#8]⟩ = .ok (.bQueryBlock 0x12#8 0x05#8 [])) ∧
    decode c ⟨.host, [0x41#8]⟩ = .ok (.interruptPoll []) ∧
    decode c ⟨.unit, [0x20#8, 0x00#8, 0x01#8]⟩ = .ok (.findByNumericId 0x0001#16)

/-- Family A payloads that are ignored: not well-framed (R91) or with `L` below the command's minimum (44_family_a.md R261,
30_encoding.md R92); well-framed with a command number in no row of R92 (R281). -/
def Obligations.IgnoredPayloadsA : Prop :=
  ∀ (p : Bytes) (s : State), s.cfg.family = .a →
    ((¬ WellFramed s.cfg p ∨ ∃ m, minL (p.getD 2 0#8) = some m ∧ (p.getD 1 0#8).toNat < m) →
      exec (.controlTransfer p) s = .next { s with result := .noResponse }) ∧
    (WellFramed s.cfg p → p.getD 2 0#8 ∉ commandsA →
      exec (.controlTransfer p) s = .next { s with result := .noResponse })

/-- Family B payloads that are ignored (45_family_b.md R301): empty, an unknown first byte, or the wrong length. -/
def Obligations.IgnoredPayloadsB : Prop :=
  ∀ (p : Bytes) (s : State), s.cfg.family = .b →
    (p = [] ∨ lenB s.cfg (p.getD 0 0#8) = none ∨ ∃ n, lenB s.cfg (p.getD 0 0#8) = some n ∧ p.length ≠ n) →
    exec (.controlTransfer p) s = .next { s with result := .noResponse }

/-! ## The step and the transfer port -/

/-- A step runs the decoded instruction on the state that accepted the request (the inbox and what comes with a request:
the model's choice, logs 1, 8, 9, 11, 13). With no request the core waits (70_reset_and_hazards.md R371); waiting as a step
that changes nothing is the model's choice (log 1). -/
def Obligations.StepRunsTheDecodedInstruction : Prop :=
  (∀ (s : State) (r : Request) (rest : List Request) (i : Instr), s.inbox = r :: rest → decode s.cfg r.code = .ok i →
    step s = exec i { s with inbox := rest, inFlight := r.inFlight, storeAnswer := r.storeAnswer, garbage := r.garbage,
                             storeCalls := [] }) ∧
  ∀ s : State, s.inbox = [] → step s = .next s

/-- A control transfer runs the rule of the command its payload holds (43_transfer.md R232, R260, R300). -/
def Obligations.ControlTransferRunsTheCommand : Prop :=
  ∀ (p : Bytes) (i : Instr) (s : State), decodeCommand s.cfg p = .ok i → exec (.controlTransfer p) s = exec i s

/-- A control transfer of an activation command completes: S6 of 95_test_vectors.md on Family A (R232, R260, R266), with
any sequence number, unused data and trailing bytes; S7 on Family B (R300, R302), with any bytes that LEN_B asks for
after the argument (none by its default). The bytes after the operands, none under the default LEN_B, are the model's
choice (log 19). -/
def Obligations.ControlTransferActivates : Prop :=
  ∀ s : State, CanReply s → 32 ≤ s.cfg.reportLen →
    (∀ (seq : Byte) (t : FrameTail), WellFormed s.cfg (.aActivate seq t) = true →
      exec (.controlTransfer (aFrame 0x80#8 seq [] t)) s =
        .next (replied { s with activated := true } (aFrame 0x80#8 seq [] t)
          (s.cfg.activationFrame.toList ++ zeros (s.cfg.reportLen - 24)) s.cfg.dAEcho)) ∧
    ∀ ex : Bytes, s.cfg.family = .b → 2 + ex.length = s.cfg.lengthsB.activate →
      exec (.controlTransfer (0x41#8 :: 0x01#8 :: ex)) s =
        .next (replied { s with activated := true } (0x41#8 :: 0x01#8 :: ex)
          ([0x41#8, 0x01#8, 0xFF#8, 0x77#8] ++ zeros (s.cfg.reportLen - 4)) s.cfg.dBCtrl)

/-- The echo of a Family A control transfer (44_family_a.md R263): where the result is a triple, it is the payload, its
length and D_A_ECHO. -/
def Obligations.FamilyAEcho : Prop :=
  ∀ (p : Bytes) (s t : State), s.cfg.family = .a → exec (.controlTransfer p) s = .next t →
    t.result = .noResponse ∨ t.result = .triple p p.length s.cfg.dAEcho

/-- One transfer, one step (43_transfer.md R240): a control transfer ends in one triple and pushes at most one entry, or
ends in NoResponse and changes nothing else; a poll pops at most one entry of one queue. -/
def Obligations.OneTransferOneStep : Prop :=
  (∀ (p : Bytes) (s t : State), exec (.controlTransfer p) s = .next t →
    t = { s with result := .noResponse } ∨
      ((∃ b n d, t.result = .triple b n d) ∧ (t.tq = s.tq ∨ ∃ e, t.tq = s.tq ++ [e]) ∧ t.notif = s.notif)) ∧
  ∀ (p : Bytes) (s t : State), exec (.interruptPoll p) s = .next t →
    (t.tq = s.tq ∧ t.notif = s.notif) ∨ (∃ e, s.tq = e :: t.tq ∧ t.notif = s.notif) ∨
      (∃ e, s.notif = e :: t.notif ∧ t.tq = s.tq)

/-- Cancellation (43_transfer.md R236): busy while a transfer is in flight, else success; no state changes. -/
def Obligations.CancelTransfer : Prop :=
  ∀ s : State,
    (s.inFlight = true → exec .cancelTransfer s = .next { s with result := .busy }) ∧
    (s.inFlight = false → exec .cancelTransfer s = .next { s with result := .success })

/-- Bulk and isochronous transfers are refused (43_transfer.md R231), and so is CreateFigure on Family B (42_registry.md
R203). That CreateFigure_B faults in every state, on a Family A instance too, of which R203 does not speak, is the
model's choice (log 14). -/
def Obligations.RefusedRequests : Prop :=
  ∀ s : State,
    (∀ p, exec (.bulkTransfer p) s = .fault (.refused .transferKind)) ∧
    (∀ p, exec (.isochronousTransfer p) s = .fault (.refused .transferKind)) ∧
    (∀ h id, exec (.createFigureB h id) s = .fault (.refused .createFigureFamilyB))

/-! ## Family A commands -/

/-- The response buffer (30_encoding.md R93): `AA`, one more than the payload's length, the sequence number, the
payload, the sum of all of these modulo 256, zeros. The notification buffer (R95): `AB 04 RC MK OR KD CK`, zeros, with
KD 00 for added and 01 for removed, for a slot its role code, A_MARKER and its order-added. The eight blank commands
(44_family_a.md R265, R269 to R275, R280): the reply is `AA 01 seq CK` and 28 zero bytes, the payload is echoed, and
nothing else changes. A response whose payload is longer than the 28 bytes R93 admits, the length byte cut to 8 bits
(log 15), and an order-added above 255, cut to its low byte (log 27), are the model's choice. The role code 0 of a slot
past the end of a short ROLE_CODE_A is the model's choice (log 28). -/
def Obligations.ReplyLayoutsAndBlankCommands : Prop :=
  (∀ (c : Params) (seq : Byte) (p : Bytes), 4 + p.length ≤ c.reportLen →
    aResp c seq p = [0xAA#8, BitVec.ofNat 8 (1 + p.length), seq] ++ p ++
      [BitVec.ofNat 8 (0xAA + (1 + p.length) + seq.toNat + (p.map BitVec.toNat).sum)] ++
      zeros (c.reportLen - (4 + p.length))) ∧
  (∀ (c : Params) (rc mk ob : Byte), 32 ≤ c.reportLen →
    aNotif c rc mk ob .added = [0xAB#8, 0x04#8, rc, mk, ob, 0x00#8,
      BitVec.ofNat 8 (0xAF + rc.toNat + mk.toNat + ob.toNat)] ++ zeros (c.reportLen - 7) ∧
    aNotif c rc mk ob .removed = [0xAB#8, 0x04#8, rc, mk, ob, 0x01#8,
      BitVec.ofNat 8 (0xAF + rc.toNat + mk.toNat + ob.toNat + 1)] ++ zeros (c.reportLen - 7)) ∧
  (∀ (c : Params) (i o : Nat) (k : NotifKind),
    slotNotif c i (some o) k = aNotif c (c.roleCodeA.getD i 0#8) c.aMarker (BitVec.ofNat 8 o) k) ∧
  ∀ (seq : Byte) (t : FrameTail) (s : State), s.cfg.family = .a → CanReply s → 32 ≤ s.cfg.reportLen →
    let reply : Bytes := [0xAA#8, 0x01#8, seq, 0xAB#8 + seq] ++ zeros (s.cfg.reportLen - 4)
    exec (.aBlank90 seq t) s = .next (replied s (aFrame 0x90#8 seq [] t) reply s.cfg.dAEcho) ∧
    exec (.aBlank91 seq t) s = .next (replied s (aFrame 0x91#8 seq [] t) reply s.cfg.dAEcho) ∧
    exec (.aBlank92 seq t) s = .next (replied s (aFrame 0x92#8 seq [] t) reply s.cfg.dAEcho) ∧
    exec (.aBlank93 seq t) s = .next (replied s (aFrame 0x93#8 seq [] t) reply s.cfg.dAEcho) ∧
    exec (.aBlank94 seq t) s = .next (replied s (aFrame 0x94#8 seq [] t) reply s.cfg.dAEcho) ∧
    exec (.aBlank95 seq t) s = .next (replied s (aFrame 0x95#8 seq [] t) reply s.cfg.dAEcho) ∧
    exec (.aBlank96 seq t) s = .next (replied s (aFrame 0x96#8 seq [] t) reply s.cfg.dAEcho) ∧
    exec (.aBlankB5 seq t) s = .next (replied s (aFrame 0xB5#8 seq [] t) reply s.cfg.dAEcho)

/-- 0x80 (44_family_a.md R266): activates and replies the activation frame padded to the buffer's length, whatever the
sequence number. 0x81 (R267): seeds the PRNG with the descrambled operand, PRNG_WARMUP outputs discarded (R160), and replies
a blank acknowledgement. -/
def Obligations.ActivateAndSeedCommands : Prop :=
  ∀ (seq : Byte) (x : U64) (t : FrameTail) (s : State), s.cfg.family = .a → CanReply s → 32 ≤ s.cfg.reportLen →
    exec (.aActivate seq t) s =
      .next (replied { s with activated := true } (aFrame 0x80#8 seq [] t)
        (s.cfg.activationFrame.toList ++ zeros (s.cfg.reportLen - 24)) s.cfg.dAEcho) ∧
    ∃ (seed : U32) (p : Prng), exec (.descramble x) s = .next { s with result := .word seed } ∧ WarmedUp s seed p ∧
      exec (.aSeed seq x t) s =
        .next (replied { s with prng := p } (aFrame 0x81#8 seq (tobe64 x) t)
          ([0xAA#8, 0x01#8, seq, 0xAB#8 + seq] ++ zeros (s.cfg.reportLen - 4)) s.cfg.dAEcho)

/-- 0x83 (R268, 60_exceptions.md R341): with a seeded PRNG it draws the word GetNext gives and replies it as Scramble makes
it with GARBAGE, and the guest's Descramble of the eight reply bytes gives the word back (R164); with an unseeded one it
faults. -/
def Obligations.NextRandomCommand : Prop :=
  ∀ (seq : Byte) (t : FrameTail) (s : State), s.cfg.family = .a →
    (s.prng.seeded = true → CanReply s → 32 ≤ s.cfg.reportLen →
      ∃ (p : Prng) (r : U32) (x : U64),
        exec .getNext s = .next { s with prng := p, result := .word r } ∧
        exec (.scramble r s.garbage) s = .next { s with result := .dword x } ∧
        exec (.aNextRandom seq t) s =
          .next (replied { s with prng := p } (aFrame 0x83#8 seq [] t) (aResp s.cfg seq (tobe64 x)) s.cfg.dAEcho) ∧
        be64 (slice (aResp s.cfg seq (tobe64 x)) 3 8) = x ∧
        (popcount64 s.cfg.scrambleMask = 32 → exec (.descramble x) s = .next { s with result := .word r })) ∧
    (s.prng.seeded = false → exec (.aNextRandom seq t) s = .fault .unseededPrng)

/-- 0xA1 and GetPresentFigures (R276, R188): for each present slot in the fixed role order, its role code plus its
order-added, modulo 256, and the marker. A body longer than the 28 bytes R93 admits (log 15), an UNASSIGNED order-added
of a present slot (log 16) and one above 255 (log 27) are the model's choice. The role code 0 of a slot past the end of
a short ROLE_CODE_A is the model's choice (log 28). -/
def Obligations.PresentFigures : Prop :=
  ∀ (seq : Byte) (t : FrameTail) (s : State), s.cfg.family = .a →
    let body := (List.range s.slots.length).flatMap fun i =>
      if (s.slotAt i).present then [roleCode s.cfg i + orderByte (s.slotAt i).order, s.cfg.aMarker] else []
    exec (.getPresentFigures seq) s = .next { s with result := .bytes (aResp s.cfg seq body) } ∧
    (CanReply s → exec (.aPresentFigures seq t) s =
      .next (replied s (aFrame 0xA1#8 seq [] t) (aResp s.cfg seq body) s.cfg.dAEcho))

/-- What a slot byte names (42_registry.md R195; the first slot in slot order where several match: the model's choice,
log 25). -/
def Obligations.SlotResolution : Prop :=
  (∀ (s : State) (x : Byte), s.cfg.aSelector = .slotIndex →
    (x.toNat < s.cfg.nSlotsA → resolveA s x = .ok (some x.toNat)) ∧
    (s.cfg.nSlotsA ≤ x.toNat → resolveA s x = .error (.slotOutOfRange x.toNat))) ∧
  (∀ (s : State) (x : Byte), s.cfg.aSelector = .orderAdded →
    (∃ i, i < s.slots.length ∧ resolveA s x = .ok (some i) ∧ (s.slotAt i).present = true ∧
      (s.slotAt i).order = some x.toNat ∧
      ∀ j, j < i → ¬ ((s.slotAt j).present = true ∧ (s.slotAt j).order = some x.toNat)) ∨
    (resolveA s x = .ok none ∧
      ∀ j, j < s.slots.length → ¬ ((s.slotAt j).present = true ∧ (s.slotAt j).order = some x.toNat))) ∧
  ∀ (s : State) (sb : Byte),
    (sb.toNat % 16 < s.cfg.nSlotsB → resolveB s sb = .ok (sb.toNat % 16)) ∧
    (s.cfg.nSlotsB ≤ sb.toNat % 16 → resolveB s sb = .error (.slotOutOfRange (sb.toNat % 16)))

/-- Block addressing of Family A (42_registry.md R183) and of Family B (R184), of blocks that lie inside the buffer.
That a block R183 or R184 addresses outside a shorter buffer is out of range too is DEDUCED from 20_memory.md R62 (log
19). -/
def Obligations.BlockAddressing : Prop :=
  (∀ (c : Params) (n : Byte), (n.toNat = 0 → 0x20 ≤ c.bufLenA → offA c n = .ok 0x10) ∧
    (0 < n.toNat → n.toNat < 5 → 16 * (4 * n.toNat) + 16 ≤ c.bufLenA → offA c n = .ok (16 * (4 * n.toNat))) ∧
    (5 ≤ n.toNat → offA c n = .error (.blockOutOfRange n.toNat)) ∧
    (n.toNat < 5 → c.bufLenA < blockOffsetA n + 16 → offA c n = .error (.blockOutOfRange n.toNat))) ∧
  ∀ (c : Params) (n : Byte), (n.toNat < 64 → 16 * n.toNat + 16 ≤ c.bufLenB → offB c n = .ok (16 * n.toNat)) ∧
    (64 ≤ n.toNat → offB c n = .error (.blockOutOfRange n.toNat)) ∧
    (n.toNat < 64 → c.bufLenB < 16 * n.toNat + 16 → offB c n = .error (.blockOutOfRange n.toNat))

/-- 0xA2 and QueryBlock on Family A (R277, R189): a present slot answers status 00 and its 16 bytes, an absent one or
none status 01 and zeros; no state changes but the queue and the result. That the unit call QueryBlock_A takes a
selector byte and resolves it itself is the model's choice (log 17). -/
def Obligations.QueryBlockFamilyA : Prop :=
  ∀ (seq sel blk : Byte) (t : FrameTail) (s : State) (slot : Option Nat), s.cfg.family = .a →
    resolveA s sel = .ok slot → blk.toNat ≤ 4 → blockOffsetA blk + 16 ≤ s.cfg.bufLenA →
    ∃ body : Bytes,
      (∀ i, slot = some i → (s.slotAt i).present = true →
        body = 0x00#8 :: s.memRead i (blockOffsetA blk) 16) ∧
      (∀ i, slot = some i → (s.slotAt i).present = false → body = 0x01#8 :: zeros 16) ∧
      (slot = none → body = 0x01#8 :: zeros 16) ∧
      exec (.queryBlockA sel blk seq) s = .next { s with result := .bytes (aResp s.cfg seq body) } ∧
      (CanReply s → exec (.aQueryBlock seq sel blk t) s =
        .next (replied s (aFrame 0xA2#8 seq [sel, blk] t) (aResp s.cfg seq body) s.cfg.dAEcho))

/-- 0xA3 and WriteBlock on Family A (R278, R191, R192): the block is written at the resolved slot and persisted as R192
says; the reply is status 00 on success, else 01. With no slot nothing is written. That the unit call WriteBlock_A takes
a selector byte and resolves it itself is the model's choice (log 17); so is what is known of a blob after a failed
write (log 10). -/
def Obligations.WriteBlockFamilyA : Prop :=
  ∀ (seq sel blk : Byte) (v : Bytes) (t : FrameTail) (s : State), s.cfg.family = .a → blk.toNat ≤ 4 →
    blockOffsetA blk + 16 ≤ s.cfg.bufLenA →
    (∀ i, resolveA s sel = .ok (some i) → HasHandle s i →
      ∃ s1 ok, BlockWritten s i (blockOffsetA blk) v s1 ok ∧
        exec (.writeBlockA sel blk v seq) s =
          .next { s1 with result := .bytes (aResp s.cfg seq [if ok then 0x00#8 else 0x01#8]) } ∧
        (CanReply s → exec (.aWriteBlock seq sel blk v t) s =
          .next (replied s1 (aFrame 0xA3#8 seq (sel :: blk :: v) t) (aResp s.cfg seq [if ok then 0x00#8 else 0x01#8])
            s.cfg.dAEcho))) ∧
    (resolveA s sel = .ok none →
      exec (.writeBlockA sel blk v seq) s = .next { s with result := .bytes (aResp s.cfg seq [0x01#8]) } ∧
      (CanReply s → exec (.aWriteBlock seq sel blk v t) s =
        .next (replied s (aFrame 0xA3#8 seq (sel :: blk :: v) t) (aResp s.cfg seq [0x01#8]) s.cfg.dAEcho)))

/-- 0xB4 and GetFigureIdentifier (R279, R194): the seven bytes at UID_OFFSET of a present slot, else seven zeros. That
the unit call GetFigureIdentifier takes a selector byte and resolves it itself is the model's choice (log 17); so is
what bytes past a buffer too short for UID_OFFSET read as (log 28). -/
def Obligations.FigureIdentifier : Prop :=
  ∀ (seq sel : Byte) (t : FrameTail) (s : State) (slot : Option Nat), s.cfg.family = .a → resolveA s sel = .ok slot →
    ∃ body : Bytes,
      (∀ i, slot = some i → (s.slotAt i).present = true → body = s.memRead i s.cfg.uidOffset 7) ∧
      (∀ i, slot = some i → (s.slotAt i).present = false → body = zeros 7) ∧
      (slot = none → body = zeros 7) ∧
      exec (.getFigureIdentifier sel seq) s = .next { s with result := .bytes (aResp s.cfg seq body) } ∧
      (CanReply s → exec (.aFigureId seq sel t) s =
        .next (replied s (aFrame 0xB4#8 seq [sel] t) (aResp s.cfg seq body) s.cfg.dAEcho))

/-- The order of checks of the block commands and of the unit calls (60_exceptions.md R350, R342, R343; R189 to R195): the
slot before the block, under either selector, both before the queue. That the Family A unit calls resolve a selector byte,
and that the slot number of the Family B unit calls is not masked, is the model's choice (log 17). -/
def Obligations.SlotCheckedBeforeBlock : Prop :=
  ∀ (seq sel blk : Byte) (v ex : Bytes) (t : FrameTail) (s : State),
    (s.cfg.family = .a → s.cfg.aSelector = .slotIndex → s.cfg.nSlotsA ≤ sel.toNat →
      exec (.aQueryBlock seq sel blk t) s = .fault (.slotOutOfRange sel.toNat) ∧
      exec (.aWriteBlock seq sel blk v t) s = .fault (.slotOutOfRange sel.toNat) ∧
      exec (.aFigureId seq sel t) s = .fault (.slotOutOfRange sel.toNat) ∧
      exec (.queryBlockA sel blk seq) s = .fault (.slotOutOfRange sel.toNat) ∧
      exec (.writeBlockA sel blk v seq) s = .fault (.slotOutOfRange sel.toNat) ∧
      exec (.getFigureIdentifier sel seq) s = .fault (.slotOutOfRange sel.toNat)) ∧
    (s.cfg.family = .a → (s.cfg.aSelector = .slotIndex → sel.toNat < s.cfg.nSlotsA) → 5 ≤ blk.toNat →
      exec (.aQueryBlock seq sel blk t) s = .fault (.blockOutOfRange blk.toNat) ∧
      exec (.aWriteBlock seq sel blk v t) s = .fault (.blockOutOfRange blk.toNat) ∧
      exec (.queryBlockA sel blk seq) s = .fault (.blockOutOfRange blk.toNat) ∧
      exec (.writeBlockA sel blk v seq) s = .fault (.blockOutOfRange blk.toNat)) ∧
    (s.cfg.family = .b → s.cfg.nSlotsB ≤ sel.toNat % 16 →
      exec (.bQueryBlock sel blk ex) s = .fault (.slotOutOfRange (sel.toNat % 16)) ∧
      exec (.bWriteBlock sel blk v ex) s = .fault (.slotOutOfRange (sel.toNat % 16))) ∧
    (s.cfg.family = .b → sel.toNat % 16 < s.cfg.nSlotsB → 64 ≤ blk.toNat →
      exec (.bQueryBlock sel blk ex) s = .fault (.blockOutOfRange blk.toNat) ∧
      exec (.bWriteBlock sel blk v ex) s = .fault (.blockOutOfRange blk.toNat)) ∧
    (s.cfg.family = .b → s.cfg.nSlotsB ≤ sel.toNat →
      exec (.queryBlockB sel blk) s = .fault (.slotOutOfRange sel.toNat) ∧
      exec (.writeBlockB sel blk v) s = .fault (.slotOutOfRange sel.toNat)) ∧
    (s.cfg.family = .b → sel.toNat < s.cfg.nSlotsB → 64 ≤ blk.toNat →
      exec (.queryBlockB sel blk) s = .fault (.blockOutOfRange blk.toNat) ∧
      exec (.writeBlockB sel blk v) s = .fault (.blockOutOfRange blk.toNat))

/-- A block write (0xA3, 'W' and the unit calls WriteBlock_A and WriteBlock_B) leaves every byte as it was but the 16 it
stores to (20_memory.md R60, R62, 42_registry.md R191, R193): the address is the resolved slot's, at the offset of R183
or R184. That the unit call WriteBlock_A takes a selector byte and resolves it itself (the model's choice), and that
WriteBlock_B takes its slot number unmasked (DEDUCED), rest on log 17. -/
def Obligations.BlockWriteFrame : Prop :=
  ∀ (seq sel sb x blk : Byte) (v ex : Bytes) (tl : FrameTail) (s t : State), SlotsShaped s → v.length = 16 →
    (∀ (slot : Option Nat) (off : Nat), resolveA s sel = .ok slot → offA s.cfg blk = .ok off →
      (exec (.aWriteBlock seq sel blk v tl) s = .next t ∨ exec (.writeBlockA sel blk v seq) s = .next t) →
      OnlyBlockChanged s t slot off) ∧
    (∀ i off : Nat, resolveB s sb = .ok i → offB s.cfg blk = .ok off →
      exec (.bWriteBlock sb blk v ex) s = .next t → OnlyBlockChanged s t (some i) off) ∧
    ∀ off : Nat, offB s.cfg blk = .ok off → exec (.writeBlockB x blk v) s = .next t →
      OnlyBlockChanged s t (some x.toNat) off

/-- A write is read back (property S8 of 95_test_vectors.md; 70_reset_and_hazards.md R382; R189 to R193): after a
persisted write, a query of the same slot and block replies the written bytes, on either family. The bytes after the
operands, none under the default LEN_B, are the model's choice (log 19). -/
def Obligations.WriteThenQuery : Prop :=
  ∀ (s u : State) (blk : Byte) (v : Bytes) (i h : Nat), SlotsShaped s → v.length = 16 →
    i < s.slots.length → (s.slotAt i).present = true → (s.slotAt i).handle = some h → s.storeAnswer = true →
    (∀ (seq seq' sel : Byte) (tl tl' : FrameTail), resolveA s sel = .ok (some i) →
      exec (.aWriteBlock seq sel blk v tl) s = .next u → CanReply u →
      ∃ w, exec (.aQueryBlock seq' sel blk tl') u = .next w ∧ w.tq = u.tq ++ [aResp s.cfg seq' (0x00#8 :: v)]) ∧
    (∀ (sb sb' : Byte) (ex ex' : Bytes), sb.toNat % 16 = i → sb'.toNat % 16 = i →
      exec (.bWriteBlock sb blk v ex) s = .next u → CanReply u →
      ∃ w, exec (.bQueryBlock sb' blk ex') u = .next w ∧
        w.tq = u.tq ++ [bResp s.cfg (0x51#8 :: (0x10#8 ||| BitVec.ofNat 8 i) :: blk :: v)])

/-! ## Family B commands -/

/-- 'A' (R302, R187): a non-zero argument activates; zero deactivates and collapses every status queue into the resting
status; the reply echoes the argument. The bytes after the operands, none under the default LEN_B, are the model's
choice (log 19). -/
def Obligations.ActivateCommandB : Prop :=
  ∀ (arg : Byte) (ex : Bytes) (s : State), s.cfg.family = .b → CanReply s → 32 ≤ s.cfg.reportLen →
    let reply : Bytes := [0x41#8, arg, 0xFF#8, 0x77#8] ++ zeros (s.cfg.reportLen - 4)
    (arg ≠ 0#8 → exec (.bActivate arg ex) s =
      .next (replied { s with activated := true } (0x41#8 :: arg :: ex) reply s.cfg.dBCtrl)) ∧
    (arg = 0#8 → exec (.bActivate arg ex) s = .next (replied
      { s with
        activated := false
        slots := s.slots.map fun x => { x with squeue := [], status := if x.present then .present else .absent } }
      (0x41#8 :: arg :: ex) reply s.cfg.dBCtrl))

/-- 'C', 'J' and 'L' (R303 to R306): one zone of S.led is written, 'J' alone replies, and no other zone and nothing else
changes. The bytes after the operands, none under the default LEN_B, are the model's choice (log 19). -/
def Obligations.LedCommands : Prop :=
  ∀ (zone r g b : Byte) (v ex : Bytes) (s : State), s.cfg.family = .b →
    exec (.bLedC r g b ex) s = .next (answered { s with led := assocPut s.led (zoneKey 0x43#8 0x00#8) [r, g, b] }
      (0x43#8 :: r :: g :: b :: ex) s.cfg.dBCtrl) ∧
    exec (.bLedL zone r g b ex) s = .next (answered { s with led := assocPut s.led (zoneKey 0x4C#8 zone) [r, g, b] }
      (0x4C#8 :: zone :: r :: g :: b :: ex) s.cfg.dBCtrl) ∧
    (CanReply s → 32 ≤ s.cfg.reportLen → exec (.bLedJ zone v ex) s =
      .next (replied { s with led := assocPut s.led (zoneKey 0x4A#8 zone) v } (0x4A#8 :: zone :: (v ++ ex))
        (0x4A#8 :: zeros (s.cfg.reportLen - 1)) s.cfg.dBCtrl)) ∧
    ∀ ch sel ch' sel' : Byte, assocGet (assocPut s.led (zoneKey ch sel) v) (zoneKey ch' sel') =
      if ch' = ch ∧ sel' = sel then some v else assocGet s.led (zoneKey ch' sel')

/-- 'R', 'S' and 'V' (R308 to R310): fixed reply, no reply, echoed version; nothing else changes. The bytes after the
operands, none under the default LEN_B, are the model's choice (log 19). -/
def Obligations.ReadyStatusVersion : Prop :=
  ∀ (x b1 b2 b3 : Byte) (ex : Bytes) (s : State), s.cfg.family = .b →
    exec (.bStatus ex) s = .next (answered s (0x53#8 :: ex) s.cfg.dBCtrl) ∧
    (CanReply s → 32 ≤ s.cfg.reportLen →
      exec (.bReady x ex) s = .next (replied s (0x52#8 :: x :: ex)
        ([0x52#8, 0x02#8, 0x1B#8] ++ zeros (s.cfg.reportLen - 3)) s.cfg.dBCtrl) ∧
      exec (.bVersion b1 b2 b3 ex) s = .next (replied s (0x56#8 :: b1 :: b2 :: b3 :: ex)
        ([0x56#8, b1, b2, b3] ++ zeros (s.cfg.reportLen - 4)) s.cfg.dBCtrl))

/-- 'Q' and QueryBlock on Family B (R307, R190): a present slot answers 0x10 | s, the block number and its 16 bytes, an
absent one 0x01, the block number and zeros; zeros fill the buffer. That the slot number of the unit call QueryBlock_B
is not masked is DEDUCED (log 17). The bytes after the operands, none under the default LEN_B, are the model's choice
(log 19). -/
def Obligations.QueryBlockFamilyB : Prop :=
  ∀ (sb slot blk : Byte) (ex : Bytes) (s : State), s.cfg.family = .b → blk.toNat < 64 →
    16 * blk.toNat + 16 ≤ s.cfg.bufLenB → 32 ≤ s.cfg.reportLen →
    let reply (i : Nat) : Bytes :=
      (if (s.slotAt i).present then
          [0x51#8, 0x10#8 ||| BitVec.ofNat 8 i, blk] ++ s.memRead i (16 * blk.toNat) 16
        else [0x51#8, 0x01#8, blk] ++ zeros 16) ++ zeros (s.cfg.reportLen - 19)
    (∀ i, sb.toNat % 16 = i → i < s.cfg.nSlotsB → CanReply s →
      exec (.bQueryBlock sb blk ex) s = .next (replied s (0x51#8 :: sb :: blk :: ex) (reply i) s.cfg.dBCtrl)) ∧
    (∀ i, slot.toNat = i → i < s.cfg.nSlotsB →
      exec (.queryBlockB slot blk) s = .next { s with result := .bytes (reply i) })

/-- 'W' and WriteBlock on Family B (R311, R193, R192). That the slot number of the unit call WriteBlock_B is not masked
is DEDUCED (log 17); what is known of a blob after a failed write is the model's choice (log 10). The bytes after the
operands, none under the default LEN_B, are the model's choice (log 19). -/
def Obligations.WriteBlockFamilyB : Prop :=
  ∀ (sb slot blk : Byte) (v ex : Bytes) (s : State), s.cfg.family = .b → blk.toNat < 64 →
    16 * blk.toNat + 16 ≤ s.cfg.bufLenB → 32 ≤ s.cfg.reportLen →
    let reply (i : Nat) (ok : Bool) : Bytes :=
      [0x57#8, if ok then 0x10#8 ||| BitVec.ofNat 8 i else 0x01#8, blk] ++ zeros (s.cfg.reportLen - 3)
    (∀ i, sb.toNat % 16 = i → i < s.cfg.nSlotsB → HasHandle s i → CanReply s →
      ∃ s1 ok, BlockWritten s i (16 * blk.toNat) v s1 ok ∧
        exec (.bWriteBlock sb blk v ex) s =
          .next (replied s1 (0x57#8 :: sb :: blk :: (v ++ ex)) (reply i ok) s.cfg.dBCtrl)) ∧
    (∀ i, slot.toNat = i → i < s.cfg.nSlotsB → HasHandle s i →
      ∃ s1 ok, BlockWritten s i (16 * blk.toNat) v s1 ok ∧
        exec (.writeBlockB slot blk v) s = .next { s1 with result := .bytes (reply i ok) })

/-! ## Polls -/

/-- A Family A poll (44_family_a.md R282, R283, R239): the transfer queue first, then the notifications, then the idle
frame, which changes no state. The port's poll and the handlers A_POLL and A_IDLE_POLL agree. Zeros after the idle frame
where REPORT_LEN is above 32 are the model's choice (log 19). -/
def Obligations.PollFamilyA : Prop :=
  ∀ (p : Bytes) (s : State), s.cfg.family = .a →
    (∀ e rest, s.tq = e :: rest →
      exec (.interruptPoll p) s = .next { s with tq := rest, result := .triple e e.length s.cfg.dAReply } ∧
      exec (.aPoll p) s = .next { s with tq := rest, result := .triple e e.length s.cfg.dAReply }) ∧
    (∀ e rest, s.tq = [] → s.notif = e :: rest →
      exec (.interruptPoll p) s = .next { s with notif := rest, result := .triple e e.length s.cfg.dAReply } ∧
      exec (.aPoll p) s = .next { s with notif := rest, result := .triple e e.length s.cfg.dAReply }) ∧
    (s.tq = [] → s.notif = [] → 32 ≤ s.cfg.reportLen →
      let t : State := { s with
        result := .triple (s.cfg.aIdleFrame.toList ++ zeros (s.cfg.reportLen - 32)) s.cfg.reportLen s.cfg.dAIdle }
      exec (.interruptPoll p) s = .next t ∧ exec (.aPoll p) s = .next t ∧ exec (.aIdlePoll p) s = .next t)

/-- A Family B poll (45_family_b.md R320, R239) chooses among the three handlers, and the handler B_POLL is that choice. -/
def Obligations.PollFamilyB : Prop :=
  ∀ (p : Bytes) (s : State), s.cfg.family = .b →
    exec (.bPoll p) s = exec (.interruptPoll p) s ∧
    (32 < p.length → exec (.interruptPoll p) s = exec (.bAudioEcho p) s) ∧
    (p.length ≤ 32 → s.tq ≠ [] → exec (.interruptPoll p) s = exec (.bQueuedReply p) s) ∧
    (p.length ≤ 32 → s.tq = [] → exec (.interruptPoll p) s = exec (.bStatusFrame p) s) ∧
    ∃ t, exec (.bPoll p) s = .next t

/-- The audio echo (45_family_b.md R321): a poll longer than 32 bytes is answered verbatim, and no state changes. The
queued reply (R324): the oldest entry of the transfer queue, a whole buffer; the status queues and the counter are as they
were. The port's poll, the poll handler and the handler of the row agree. -/
def Obligations.AudioEchoAndQueuedReply : Prop :=
  ∀ (p : Bytes) (s : State), s.cfg.family = .b →
    (32 < p.length → ∀ i ∈ [Instr.interruptPoll p, .bPoll p, .bAudioEcho p],
      exec i s = .next { s with result := .triple p p.length s.cfg.dBAudio }) ∧
    ∀ (e : Bytes) (rest : List Bytes), p.length ≤ 32 → s.tq = e :: rest → e.length = s.cfg.reportLen →
      ∀ i ∈ [Instr.interruptPoll p, .bPoll p, .bQueuedReply p],
        exec i s = .next { s with tq := rest, result := .triple e s.cfg.reportLen s.cfg.dBQueued }

/-- The status frame (45_family_b.md R322, R323, 30_encoding.md R100): every slot's status queue moves forward one step,
the frame shows the statuses after that, the counter before its increment and the activation flag. -/
def Obligations.StatusFrame : Prop :=
  ∀ (p : Bytes) (s : State), s.cfg.family = .b → p.length ≤ 32 → s.tq = [] → 32 ≤ s.cfg.reportLen →
    ∃ slots : List Slot, slots.length = s.slots.length ∧
      (∀ i, i < s.slots.length → Advanced (s.slotAt i) (slots.getD i Slot.empty)) ∧
      exec (.bStatusFrame p) s = .next { s with
        slots := slots
        counter := s.counter + 1#8
        result := .triple
          (0x53#8 :: packStatus s.cfg slots ++ [s.counter, if s.activated then 0x01#8 else 0x00#8] ++
            zeros (s.cfg.reportLen - 7))
          s.cfg.reportLen s.cfg.dBStatus }

/-- Status packing (45_family_b.md R325): slot `i` is at bits `2i+1:2i` of the word, every bit above the slots is 0, and the
four bytes are the word's in STATUS_WORD_ORDER. -/
def Obligations.StatusPacking : Prop :=
  ∀ (c : Params) (slots : List Slot), slots.length ≤ 16 →
    let w := packWord c 0 slots
    (∀ i, i < slots.length → w.extractLsb' (2 * i) 2 = (slots.getD i Slot.empty).status.code c) ∧
    (∀ j, 2 * slots.length ≤ j → w.getLsbD j = false) ∧
    packStatus c slots =
      match c.statusWordOrder with
      | .bigEndian => [w.extractLsb' 24 8, w.extractLsb' 16 8, w.extractLsb' 8 8, w.extractLsb' 0 8]
      | .littleEndian => [w.extractLsb' 0 8, w.extractLsb' 8 8, w.extractLsb' 16 8, w.extractLsb' 24 8]

/-- A poll never faults, and always ends in a triple whose count is its length (43_transfer.md R233, R237). -/
def Obligations.PollsAlwaysAnswer : Prop :=
  ∀ (p : Bytes) (s : State), ∃ t b d, exec (.interruptPoll p) s = .next t ∧ t.result = .triple b b.length d

/-! ## Crypto, checksum, CRC32 -/

/-- DeriveKey (40_crypto.md R131, R133): each of the four words of the first 16 digest bytes, its bytes reversed, whatever
HASH160 is; and the worked example of R131 and R132, under the default HASH160, the text of which is PRESUMED (log 18). -/
def Obligations.DeriveKey : Prop :=
  (∀ (uid : Bytes) (s : State),
    let digest := hash160 s.cfg (s.cfg.kdfConst.toList ++ uid)
    exec (.deriveKey uid) s = .next { s with
      result := .bytes ((List.range 16).map fun k => digest.getD (4 * (k / 4) + 3 - k % 4) 0#8) }) ∧
  ∀ s : State, s.cfg.kdfConst = Vector.replicate 31 0#8 → s.cfg.hashAlgorithm = .sha1 →
    exec (.deriveKey (zeros 7)) s = .next { s with
      result := .bytes [0x08#8, 0xC9#8, 0x76#8, 0xD5#8, 0x02#8, 0xD0#8, 0x3E#8, 0xB4#8, 0x57#8, 0x25#8, 0xD1#8, 0x3C#8,
        0x20#8, 0x1F#8, 0x83#8, 0xD5#8] }

/-- EncryptBlock and DecryptBlock (40_crypto.md R134, R135): each answers 16 bytes for a 16-byte key and block, with no
other state change, and decryption undoes encryption, whatever CIPHER128 is; and the worked example of R134, under the
default CIPHER128. The text of AES-128 is PRESUMED (log 18); the form of another cipher is the model's choice (log 19). -/
def Obligations.BlockCipher : Prop :=
  (∀ (key b : Bytes) (s : State), key.length = 16 → b.length = 16 →
    ∃ ct pt : Bytes, ct.length = 16 ∧ pt.length = 16 ∧
      exec (.encryptBlock key b) s = .next { s with result := .bytes ct } ∧
      exec (.decryptBlock key b) s = .next { s with result := .bytes pt } ∧
      exec (.decryptBlock key ct) s = .next { s with result := .bytes b }) ∧
  ∀ s : State, s.cfg.cipherAlgorithm = .aes128 →
    exec (.encryptBlock
        [0x00#8, 0x01#8, 0x02#8, 0x03#8, 0x04#8, 0x05#8, 0x06#8, 0x07#8, 0x08#8, 0x09#8, 0x0A#8, 0x0B#8, 0x0C#8, 0x0D#8,
          0x0E#8, 0x0F#8]
        [0x00#8, 0x11#8, 0x22#8, 0x33#8, 0x44#8, 0x55#8, 0x66#8, 0x77#8, 0x88#8, 0x99#8, 0xAA#8, 0xBB#8, 0xCC#8, 0xDD#8,
          0xEE#8, 0xFF#8]) s =
      .next { s with
        result := .bytes [0x69#8, 0xC4#8, 0xE0#8, 0xD8#8, 0x6A#8, 0x7B#8, 0x04#8, 0x30#8, 0xD8#8, 0xCD#8, 0xB7#8, 0x80#8,
          0x70#8, 0xB4#8, 0xC5#8, 0x5A#8] }

/-- Checksum (40_crypto.md R130): the sum of the bytes modulo 256. Crc32 (R137) in its table form (R138): a table-driven
step, one entry per byte value, each the loop body with the polynomial 0xEDB88320 applied eight times, computes the same as
the loop. -/
def Obligations.ChecksumAndCrc : Prop :=
  ∀ (bs : Bytes) (s : State),
    exec (.checksum bs) s = .next { s with result := .byte (BitVec.ofNat 8 ((bs.map BitVec.toNat).sum)) } ∧
    exec (.crc32 bs) s = .next { s with
      result := .word ((bs.foldl (fun c x => crcTable ((c ^^^ x.setWidth 32) &&& 0xFF#32) ^^^ (c >>> 8)) s.cfg.crcInit) ^^^
        s.cfg.crcXorOut) }

/-! ## The scramble engine -/

/-- GenerateSeed (41_scramble.md R160), PRNG_WARMUP outputs of GetNext discarded, which never leaves the all-zero state
(R161, for a PRNG_A0 that is not 0), and GetNext (R161, 60_exceptions.md R341). -/
def Obligations.PrngCalls : Prop :=
  (∀ (seed : U32) (s : State), ∃ p : Prng, WarmedUp s seed p ∧
    exec (.generateSeed seed) s = .next { s with prng := p, result := .done } ∧ p.seeded = true ∧
      (s.cfg.prngA0 ≠ 0#32 → ¬ (p.a = 0#32 ∧ p.b = 0#32 ∧ p.c = 0#32 ∧ p.d = 0#32))) ∧
  ∀ s : State,
    (s.prng.seeded = true →
      let t := s.prng.a - s.prng.b.rotateLeft 27
      let b1 := s.prng.b ^^^ s.prng.c.rotateLeft 17
      exec .getNext s = .next { s with
        prng := ⟨b1, s.prng.c + s.prng.d, s.prng.d + t, b1 + t, true⟩
        result := .word (b1 + t) }) ∧
    (s.prng.seeded = false → exec .getNext s = .fault .unseededPrng)

/-- Scramble and Descramble in closed form (41_scramble.md R162, R163), for the instance's mask: bit `63 - i` of the result
is the next unused bit of the value where the mask has a 1 at `i`, of the garbage where it has a 0; bit `k` of the
descrambled word is bit `63 - i` of the operand, `i` being the position of the mask's set bit number `k`. -/
def Obligations.ScrambleClosedForm : Prop :=
  (∀ (v g : U32) (s : State), ∃ r : U64, exec (.scramble v g) s = .next { s with result := .dword r } ∧
    ∀ i, i < 64 → r.getLsbD (63 - i) =
      if s.cfg.scrambleMask.getLsbD i then v.getLsbD (maskRank s.cfg.scrambleMask true i)
      else g.getLsbD (maskRank s.cfg.scrambleMask false i)) ∧
  ∀ (x : U64) (s : State), ∃ r : U32, exec (.descramble x) s = .next { s with result := .word r } ∧
    ∀ i, i < 64 → s.cfg.scrambleMask.getLsbD i = true → maskRank s.cfg.scrambleMask true i < 32 →
      r.getLsbD (maskRank s.cfg.scrambleMask true i) = x.getLsbD (63 - i)

/-- The inverse laws (41_scramble.md R164), for every mask with 32 set bits. -/
def Obligations.ScrambleInverse : Prop :=
  ∀ c : Params, popcount64 c.scrambleMask = 32 →
    (∀ v g : U32, descrambleOp c (scrambleOp c v g) = v) ∧
    ∀ (x : U64) (g : U32), scrambleOp c (descrambleOp c x) g = x ↔
      ∀ i, i < 64 → c.scrambleMask.getLsbD i = false → x.getLsbD (63 - i) = g.getLsbD (maskRank c.scrambleMask false i)

/-! ## Catalog and activation -/

/-- The catalog lookups (42_registry.md R180 to R182): first match in table order, exact names, the whole table. -/
def Obligations.CatalogLookups : Prop :=
  ∀ (id : U16) (n : Bytes) (s : State),
    exec (.findByNumericId id) s = .next { s with
      result := .optName ((s.cfg.catalog.find? fun e => e.numericId == id).map CatalogEntry.name) } ∧
    exec (.findByName n) s = .next { s with result := .optEntry (s.cfg.catalog.find? fun e => e.name == n) } ∧
    exec .allEntries s = .next { s with result := .entries s.cfg.catalog }

/-- IsActivated, Activate and Deactivate (42_registry.md R185 to R187): in Family A deactivation changes only the flag, in
Family B it collapses every status queue too. -/
def Obligations.ActivationCalls : Prop :=
  ∀ s : State,
    exec .isActivated s = .next { s with result := .bit s.activated } ∧
    exec .activate s = .next { s with activated := true, result := .done } ∧
    (s.cfg.family = .a → exec .deactivate s = .next { s with activated := false, result := .done }) ∧
    (s.cfg.family = .b → exec .deactivate s = .next { s with
      activated := false
      slots := s.slots.map fun x => { x with squeue := [], status := if x.present then .present else .absent }
      result := .done })

/-! ## Management requests -/

/-- LoadFigure on Family A (42_registry.md R196): the blob becomes the buffer, the slot gets its handle and presence
and, if it has none, the next order-added; a replaced handle is closed; an "added" notification with the order-added is
queued; the name is that of the numeric id in the decrypted metadata block. An order-added above 255, cut to its low
byte (log 27), and a layout that leaves the blob or the block (log 28) are the model's choice. The role code 0 of a slot
past the end of a short ROLE_CODE_A is the model's choice (log 28). -/
def Obligations.LoadFigureFamilyA : Prop :=
  ∀ (slot : Byte) (h : Nat) (blob : Bytes) (s : State), s.cfg.family = .a → slot.toNat < s.cfg.nSlotsA →
    slot.toNat < s.slots.length → blob.length = s.cfg.bufLenA → OrderFree s slot.toNat →
    hasRoom s.cfg s.notif.length 1 = true →
    let x := s.slotAt slot.toNat
    let o := x.order.getD s.orderCounter
    let plain := decryptBlockOp s.cfg (deriveKeyOp s.cfg (slice blob s.cfg.uidOffset 7)) (slice blob s.cfg.metaOffset 16)
    let id := be16 (slice plain s.cfg.metaLayout.id 2)
    exec (.loadFigureA slot h blob) s = .next { s with
      slots := s.slots.set slot.toNat
        { x with present := true, data := Memory.ofBytes blob, handle := some h, order := some o }
      orderCounter := if x.order.isSome then s.orderCounter else s.orderCounter + 1
      notif := s.notif ++ [aNotif s.cfg (roleCode s.cfg slot.toNat) s.cfg.aMarker (BitVec.ofNat 8 o) .added]
      storeCalls := s.storeCalls ++ (if x.present then x.handle.toList.map StoreCall.close else [])
      result := .name (((s.cfg.catalog.find? fun e => e.numericId == id).map CatalogEntry.name).getD []) }

/-- LoadFigure on Family B (42_registry.md R197): as above without an order-added; `added, present` are queued, and the name
is empty. -/
def Obligations.LoadFigureFamilyB : Prop :=
  ∀ (slot : Byte) (h : Nat) (blob : Bytes) (s : State), s.cfg.family = .b → slot.toNat < s.cfg.nSlotsB →
    slot.toNat < s.slots.length → blob.length = s.cfg.bufLenB →
    hasRoom s.cfg (s.slotAt slot.toNat).squeue.length 2 = true →
    let x := s.slotAt slot.toNat
    exec (.loadFigureB slot h blob) s = .next { s with
      slots := s.slots.set slot.toNat
        { x with present := true, data := Memory.ofBytes blob, handle := some h, squeue := x.squeue ++ [.added, .present] }
      storeCalls := s.storeCalls ++ (if x.present then x.handle.toList.map StoreCall.close else [])
      result := .name [] }

/-- Checks of the management requests (42_registry.md R196 to R200, R205; 60_exceptions.md R343, R346): a slot that does
not exist faults, a blob of the wrong size fails and changes nothing, an order counter past ORDER_MAX faults. A load, a
removal and every command that replies fault where the queue they push to is full (43_transfer.md R234, R344). The
condition that a block lies inside a shorter buffer is DEDUCED from 20_memory.md R62 (log 19). The bytes after the
operands, none under the default LEN_B, are the model's choice (log 19). -/
def Obligations.ManagementChecksAndFullQueues : Prop :=
  ∀ (seq slot blk arg b1 b2 b3 : Byte) (x : U64) (h : Nat) (blob v ex : Bytes) (t : FrameTail) (s : State),
    let full : Out := .fault (.queueOverflow .tq)
    (s.cfg.family = .a → s.cfg.nSlotsA ≤ slot.toNat →
      exec (.loadFigureA slot h blob) s = .fault (.slotOutOfRange slot.toNat) ∧
      exec (.removeFigureA slot) s = .fault (.slotOutOfRange slot.toNat)) ∧
    (s.cfg.family = .b → s.cfg.nSlotsB ≤ slot.toNat →
      exec (.loadFigureB slot h blob) s = .fault (.slotOutOfRange slot.toNat) ∧
      exec (.removeFigureB slot) s = .fault (.slotOutOfRange slot.toNat)) ∧
    (s.cfg.family = .a → slot.toNat < s.cfg.nSlotsA → blob.length ≠ s.cfg.bufLenA →
      exec (.loadFigureA slot h blob) s = .next { s with result := .failure }) ∧
    (s.cfg.family = .b → slot.toNat < s.cfg.nSlotsB → blob.length ≠ s.cfg.bufLenB →
      exec (.loadFigureB slot h blob) s = .next { s with result := .failure }) ∧
    (s.cfg.family = .a → slot.toNat < s.cfg.nSlotsA → slot.toNat < s.slots.length → blob.length = s.cfg.bufLenA →
      ¬ OrderFree s slot.toNat → exec (.loadFigureA slot h blob) s = .fault .orderCounterOverflow) ∧
    (s.cfg.family = .a → slot.toNat < s.cfg.nSlotsA → hasRoom s.cfg s.notif.length 1 = false →
      (blob.length = s.cfg.bufLenA → OrderFree s slot.toNat → slot.toNat < s.slots.length →
        exec (.loadFigureA slot h blob) s = .fault (.queueOverflow .notif)) ∧
      ((s.slotAt slot.toNat).present = true → exec (.removeFigureA slot) s = .fault (.queueOverflow .notif))) ∧
    (s.cfg.family = .b → slot.toNat < s.cfg.nSlotsB → slot.toNat < s.slots.length →
      hasRoom s.cfg (s.slotAt slot.toNat).squeue.length 2 = false →
      (blob.length = s.cfg.bufLenB →
        exec (.loadFigureB slot h blob) s = .fault (.queueOverflow (.squeue slot.toNat))) ∧
      ((s.slotAt slot.toNat).present = true →
        exec (.removeFigureB slot) s = .fault (.queueOverflow (.squeue slot.toNat)))) ∧
    (s.cfg.family = .a → ¬ CanReply s →
      exec (.aActivate seq t) s = full ∧ exec (.aSeed seq x t) s = full ∧
      (s.prng.seeded = true → exec (.aNextRandom seq t) s = full) ∧
      exec (.aBlank90 seq t) s = full ∧ exec (.aBlank91 seq t) s = full ∧ exec (.aBlank92 seq t) s = full ∧
      exec (.aBlank93 seq t) s = full ∧ exec (.aBlank94 seq t) s = full ∧ exec (.aBlank95 seq t) s = full ∧
      exec (.aBlank96 seq t) s = full ∧ exec (.aBlankB5 seq t) s = full ∧ exec (.aPresentFigures seq t) s = full ∧
      ((s.cfg.aSelector = .slotIndex → slot.toNat < s.cfg.nSlotsA) →
        exec (.aFigureId seq slot t) s = full ∧
        (blk.toNat < 5 → blockOffsetA blk + 16 ≤ s.cfg.bufLenA →
          exec (.aQueryBlock seq slot blk t) s = full ∧ exec (.aWriteBlock seq slot blk v t) s = full))) ∧
    (s.cfg.family = .b → ¬ CanReply s →
      exec (.bActivate arg ex) s = full ∧ exec (.bLedJ slot v ex) s = full ∧ exec (.bReady arg ex) s = full ∧
      exec (.bVersion b1 b2 b3 ex) s = full ∧
      (slot.toNat % 16 < s.cfg.nSlotsB → blk.toNat < 64 → 16 * blk.toNat + 16 ≤ s.cfg.bufLenB →
        exec (.bQueryBlock slot blk ex) s = full ∧ exec (.bWriteBlock slot blk v ex) s = full))

/-- RemoveFigure on Family A (42_registry.md R199, R198): presence, handle and order-added go, the data stays, a
"removed" notification with the prior order-added is queued, the handle is closed; the counter goes back to
ORDER_INITIAL exactly where the parameter says so and no slot stays present. On Family B (R200): presence and handle go,
and `removed, absent` are queued. An empty slot is left alone. A notification's order byte for an UNASSIGNED order-added
of a present slot (log 16), or for one above 255 (log 27), is the model's choice. The role code 0 of a slot past the end
of a short ROLE_CODE_A is the model's choice (log 28). -/
def Obligations.RemoveFigure : Prop :=
  ∀ (slot : Byte) (s : State),
    let x := s.slotAt slot.toNat
    (s.cfg.family = .a → slot.toNat < s.cfg.nSlotsA → x.present = false →
      exec (.removeFigureA slot) s = .next { s with result := .done }) ∧
    (s.cfg.family = .a → slot.toNat < s.cfg.nSlotsA → x.present = true → hasRoom s.cfg s.notif.length 1 = true →
      ∃ k, ((s.cfg.orderResetWhenEmpty = true ∧
              ∀ j, j < s.slots.length → j ≠ slot.toNat → (s.slotAt j).present = false) → k = s.cfg.orderInitial) ∧
        (¬ (s.cfg.orderResetWhenEmpty = true ∧
              ∀ j, j < s.slots.length → j ≠ slot.toNat → (s.slotAt j).present = false) → k = s.orderCounter) ∧
        exec (.removeFigureA slot) s = .next { s with
          slots := s.slots.set slot.toNat { x with present := false, handle := none, order := none }
          orderCounter := k
          notif := s.notif ++ [aNotif s.cfg (roleCode s.cfg slot.toNat) s.cfg.aMarker (orderByte x.order) .removed]
          storeCalls := s.storeCalls ++ x.handle.toList.map StoreCall.close
          result := .done }) ∧
    (s.cfg.family = .b → slot.toNat < s.cfg.nSlotsB → x.present = false →
      exec (.removeFigureB slot) s = .next { s with result := .done }) ∧
    (s.cfg.family = .b → slot.toNat < s.cfg.nSlotsB → x.present = true → hasRoom s.cfg x.squeue.length 2 = true →
      exec (.removeFigureB slot) s = .next { s with
        slots := s.slots.set slot.toNat
          { x with present := false, handle := none, squeue := x.squeue ++ [.removed, .absent] }
        storeCalls := s.storeCalls ++ x.handle.toList.map StoreCall.close
        result := .done })

/-- CreateFigure (42_registry.md R201, R202; S4 of 95_test_vectors.md): an id outside the catalog fails with no storage
write; else the figure's blob (its metadata block encrypted with the identifier's key, the filler, the markers) is
written to the handle, and the result is the storage port's answer; no TPE state changes. What is known of a blob after
a failed write is the model's choice (log 10). Bytes past the end of a buffer too short for the layout are dropped: the
model's choice (log 28). -/
def Obligations.CreateFigureResult : Prop :=
  ∀ (h : Nat) (id : U16) (s : State), s.cfg.family = .a →
    ((∀ e ∈ s.cfg.catalog, e.numericId ≠ id) → exec (.createFigure h id) s = .next { s with result := .failure }) ∧
    ∀ e, (s.cfg.catalog.find? fun e => e.numericId == id) = some e → s.cfg.metaLayout.wf = true →
      ∃ key plain hidden fill blob : Bytes, MetadataBlock s e plain ∧
        exec (.deriveKey e.uid.toList) s = .next { s with result := .bytes key } ∧
        exec (.encryptBlock key plain) s = .next { s with result := .bytes hidden } ∧
        exec (.encryptBlock key (zeros 16)) s = .next { s with result := .bytes fill } ∧
        FigureBytes s e hidden fill blob ∧
        (s.storeAnswer = true → exec (.createFigure h id) s = .next { s with
          storage := assocPut s.storage h blob
          storeCalls := s.storeCalls ++ [.write h blob true]
          result := .success }) ∧
        (s.storeAnswer = false → exec (.createFigure h id) s = .next { s with
          storage := assocErase s.storage h
          storeCalls := s.storeCalls ++ [.write h blob false]
          result := .failure })

/-- Create then load (property S3 of 95_test_vectors.md; 42_registry.md R201, R196, R202), under the decided figure layout,
whatever HASH160 and CIPHER128 are: loading the blob a CreateFigure wrote returns the catalog name of its numeric id. Markers
may stand anywhere outside the first two blocks. -/
def Obligations.CreateThenLoad : Prop :=
  ∀ (s t : State) (h : Nat) (id : U16) (e : CatalogEntry) (slot : Byte), s.cfg.family = .a →
    s.cfg.uidOffset = 0x00 → s.cfg.metaOffset = 0x10 → s.cfg.metaLayout = ⟨0, 1, 3, 12⟩ → 0x20 ≤ s.cfg.bufLenA →
    (∀ m ∈ s.cfg.markers, 0x20 ≤ m.1) → entryById s.cfg.catalog id = some e → s.storeAnswer = true →
    exec (.createFigure h id) s = .next t →
    slot.toNat < s.cfg.nSlotsA → OrderFree s slot.toNat → hasRoom s.cfg s.notif.length 1 = true →
    ∃ blob u, assocGet t.storage h = some blob ∧ exec (.loadFigureA slot h blob) t = .next u ∧ u.result = .name e.name

/-! ## Invariants -/

/-- Right after reset every invariant holds, on every instance whose order counter starts within its range
(10_state.md R29, R45 to R48) and whatever is known of the storage, kept in its form (logs 10, 21). -/
def Obligations.ResetMeetsTheInvariants : Prop :=
  ∀ (c : Params) (files : List (Nat × Bytes)), c.orderInitial ≤ c.orderMax + 1 → assocWf files = true →
    let s := State.resetWith c files
    SlotsShaped s ∧ QueuesShaped s ∧ HandlesMatch s ∧ OrdersOk s ∧ StatusOk s ∧ MapsCanonical s

/-- What reset leaves (10_state.md R48, 70_reset_and_hazards.md R370, R373), for any parameters; the backing storage is as
it was (R370, 60_exceptions.md R360); the PRNG words, which R48 leaves unspecified, are not spoken of. The default instance,
of whose storage nothing is known (the model's choice, logs 5, 10), has sound parameters (00_scope.md R9). -/
def Obligations.ResetValues : Prop :=
  (∀ (c : Params) (files : List (Nat × Bytes)),
    let s := State.resetWith c files
    s.cfg = c ∧ s.storage = files ∧ s.activated = false ∧ s.slots.length = c.nSlots ∧
      (∀ i, i < c.nSlots → (s.slotAt i).present = false ∧ (∀ a, (s.slotAt i).data.get a = 0#8) ∧
        (s.slotAt i).handle = none ∧ (s.slotAt i).order = none ∧ (s.slotAt i).status = .absent ∧
        (s.slotAt i).squeue = []) ∧
      s.orderCounter = c.orderInitial ∧ s.notif = [] ∧ s.counter = c.bCounterInit ∧ s.led = [] ∧
      s.prng.seeded = false ∧ s.tq = [] ∧ s.inFlight = false) ∧
  State.reset = State.resetWith Config.default [] ∧ Config.default.wf = true

/-- Buffers keep their length and the slot count is fixed (10_state.md R47, R24). That a buffer keeps its canonical form is
the model's own invariant (log 21). -/
def Obligations.StepKeepsSlotsShaped : Prop :=
  ∀ s t : State, SlotsShaped s → step s = .next t → SlotsShaped t

/-- Queues hold buffers of REPORT_LEN bytes within their capacity (10_state.md R30, R32, R38, 60_exceptions.md R344); a slot
has a handle exactly while it is present (42_registry.md R192, 10_state.md R27); the LED map and the storage record stay
canonical (the model's own form, logs 10, 23). -/
def Obligations.StepKeepsQueuesHandlesMaps : Prop :=
  ∀ s t : State, step s = .next t →
    (QueuesShaped s → QueuesShaped t) ∧ (HandlesMatch s → HandlesMatch t) ∧ (MapsCanonical s → MapsCanonical t)

/-- Distinct present slots have distinct order-added values (10_state.md R45), under either reset policy. -/
def Obligations.StepKeepsOrdersDistinct : Prop :=
  ∀ s t : State, s.cfg.orderInitial ≤ s.cfg.orderMax + 1 → OrdersOk s → step s = .next t → OrdersOk t

/-- Queued transitions end in the resting status that matches presence (10_state.md R46). -/
def Obligations.StepKeepsStatusTerminal : Prop :=
  ∀ s t : State, StatusOk s → step s = .next t → StatusOk t

/-- No operation writes the configuration (10_state.md R22) or the host-supplied in-flight bit (R39), nor the model's
own fields for what comes with a request: the waiting requests, the storage answer and the garbage draw (the model's
choice, logs 1, 8, 9, 13). -/
def Obligations.ConfigurationIsNotState : Prop :=
  ∀ (i : Instr) (s t : State), exec i s = .next t →
    t.cfg = s.cfg ∧ t.inFlight = s.inFlight ∧ t.inbox = s.inbox ∧ t.garbage = s.garbage ∧ t.storeAnswer = s.storeAnswer

/-- Protection by port (60_exceptions.md R353): the host transfer port issues transfers and cancellations only; they insert,
remove and create no figure, and change figure data only where one is a control transfer that holds 0xA3 or 'W'. -/
def Obligations.HostPortProtection : Prop :=
  ∀ (bytes : Bytes) (i : Instr) (s t : State), decode s.cfg ⟨.host, bytes⟩ = .ok i → exec i s = .next t →
    ((∃ p, i = .controlTransfer p) ∨ (∃ p, i = .interruptPoll p) ∨ i = .cancelTransfer) ∧
    figures t = figures s ∧ t.orderCounter = s.orderCounter ∧ t.cfg = s.cfg ∧
    (t.slots.map Slot.data = s.slots.map Slot.data ∨
      ∃ p, i = .controlTransfer p ∧
        ((∃ seq sel blk v tl, decodeCommand s.cfg p = .ok (.aWriteBlock seq sel blk v tl)) ∨
          ∃ sb blk v ex, decodeCommand s.cfg p = .ok (.bWriteBlock sb blk v ex)))

/-- A fault comes only from what the table of 60_exceptions.md R340 names, for any instruction and any state: an
unseeded PRNG, a block or slot out of range, an exhausted order counter and a refused kind with the instruction and the
operand they come from, a full queue with the queue. That a unit call of Family A has a selector and one of Family B an
unmasked slot number rests on log 17; that a block outside a shorter buffer is out of range is DEDUCED from 20_memory.md
R62 (log 19). A control transfer faults as its command does (ControlTransferRunsTheCommand). -/
def Obligations.FaultsComeFromTheirRules : Prop :=
  ∀ (i : Instr) (s : State) (f : Fault), (∀ p, i ≠ .controlTransfer p) → exec i s = .fault f →
    match f with
    | .unseededPrng => s.prng.seeded = false ∧ (i = .getNext ∨ ∃ seq t, i = .aNextRandom seq t)
    | .blockOutOfRange n => ∃ blk : Byte, n = blk.toNat ∧
        ((s.cfg.family = .a ∧ HasBlockA i blk ∧ (5 ≤ n ∨ s.cfg.bufLenA < blockOffsetA blk + 16)) ∨
          (s.cfg.family = .b ∧ HasBlockB i blk ∧ (64 ≤ n ∨ s.cfg.bufLenB < 16 * n + 16)))
    | .slotOutOfRange n => ∃ x : Byte,
        (s.cfg.family = .a ∧ s.cfg.nSlotsA ≤ n ∧ n = x.toNat ∧
          ((s.cfg.aSelector = .slotIndex ∧ HasSelectorA i x) ∨ HasSlotA i x)) ∨
        (s.cfg.family = .b ∧ s.cfg.nSlotsB ≤ n ∧
          ((n = x.toNat % 16 ∧ HasSlotByteB i x) ∨ (n = x.toNat ∧ HasSlotB i x)))
    | .queueOverflow .tq => ¬ CanReply s
    | .queueOverflow .notif => hasRoom s.cfg s.notif.length 1 = false ∧ s.cfg.family = .a
    | .queueOverflow (.squeue k) => hasRoom s.cfg (s.slotAt k).squeue.length 2 = false ∧ s.cfg.family = .b
    | .orderCounterOverflow => s.cfg.orderMax < s.orderCounter ∧ ∃ slot h blob, i = .loadFigureA slot h blob
    | .refused .transferKind => (∃ p, i = .bulkTransfer p) ∨ ∃ p, i = .isochronousTransfer p
    | .refused .createFigureFamilyB => ∃ h id, i = .createFigureB h id

/-- A request that decodes at the host transfer port or at the management port is never turned away by the model: it runs or
faults as the spec says (00_scope.md R8). -/
def Obligations.PortRequestsAreNeverTurnedAway : Prop :=
  ∀ (e : Entry) (bytes : Bytes) (i : Instr) (s : State) (r : Refusal), (e = .host ∨ e = .management) →
    decode s.cfg ⟨e, bytes⟩ = .ok i → exec i s ≠ .refused r

/-- Delays are annotations (70_reset_and_hazards.md R384): a machine with every delay 0 computes the same states and bytes,
step for step. -/
def Obligations.DelaysAreAnnotations : Prop :=
  ∀ s : State, outNoDelay (step s) = outNoDelay (step s.noDelay)
end

