-- ==== Sys2Proof/Laws/Aes.lean ====
section
/-! SUPPORT. The layers of the block cipher (40_crypto.md R134, R135): each keeps the length of a block, and each has its
inverse. -/

namespace Sys2Proof.Machine

/-! ## Bytes -/

/-- A fact about a byte holds if it holds of all 256. -/
theorem byte_cases {P : Byte → Prop} (h : ∀ n : Fin 256, P (BitVec.ofFin n)) (x : Byte) : P x := h x.toFin

theorem invSbox_sbox : ∀ x : Byte, invSbox (sbox x) = x := byte_cases (by decide +kernel)

/-- Multiplication by x is linear. -/
theorem xtime_xor (x y : Byte) : xtime (x ^^^ y) = xtime x ^^^ xtime y := by
  have h : xtime x ^^^ xtime y =
      (x <<< 1 ^^^ y <<< 1) ^^^ ((if x.msb then 0x1B#8 else 0x00#8) ^^^ (if y.msb then 0x1B#8 else 0x00#8)) := by
    unfold xtime; ac_rfl
  rw [h, xtime, BitVec.shiftLeft_xor_distrib, BitVec.msb_xor]
  cases x.msb <;> cases y.msb <;> simp

theorem gf3_xor (x y : Byte) : gf3 (x ^^^ y) = gf3 x ^^^ gf3 y := by simp only [gf3, xtime_xor]; ac_rfl
theorem gf9_xor (x y : Byte) : gf9 (x ^^^ y) = gf9 x ^^^ gf9 y := by simp only [gf9, xtime_xor]; ac_rfl
theorem gf11_xor (x y : Byte) : gf11 (x ^^^ y) = gf11 x ^^^ gf11 y := by simp only [gf11, xtime_xor]; ac_rfl
theorem gf13_xor (x y : Byte) : gf13 (x ^^^ y) = gf13 x ^^^ gf13 y := by simp only [gf13, xtime_xor]; ac_rfl
theorem gf14_xor (x y : Byte) : gf14 (x ^^^ y) = gf14 x ^^^ gf14 y := by simp only [gf14, xtime_xor]; ac_rfl

/-- What one byte of a column gives to its own place in the product of the two column matrices, and to the others. -/
theorem gf_diagonal : ∀ x : Byte, gf14 (xtime x) ^^^ gf11 x ^^^ gf13 x ^^^ gf9 (gf3 x) = x := byte_cases (by decide +kernel)
theorem gf_first : ∀ x : Byte, gf14 (gf3 x) ^^^ gf11 (xtime x) ^^^ gf13 x ^^^ gf9 x = 0#8 := byte_cases (by decide +kernel)
theorem gf_second : ∀ x : Byte, gf14 x ^^^ gf11 (gf3 x) ^^^ gf13 (xtime x) ^^^ gf9 x = 0#8 := byte_cases (by decide +kernel)
theorem gf_third : ∀ x : Byte, gf14 x ^^^ gf11 x ^^^ gf13 (gf3 x) ^^^ gf9 (xtime x) = 0#8 := byte_cases (by decide +kernel)

/-- A row of the inverse column matrix against a mixed column. -/
theorem gf_row (a b c d : Byte) :
    gf14 (xtime a ^^^ gf3 b ^^^ c ^^^ d) ^^^ gf11 (xtime b ^^^ gf3 c ^^^ d ^^^ a) ^^^ gf13 (xtime c ^^^ gf3 d ^^^ a ^^^ b) ^^^
      gf9 (xtime d ^^^ gf3 a ^^^ b ^^^ c) = a := by
  have h : gf14 (xtime a ^^^ gf3 b ^^^ c ^^^ d) ^^^ gf11 (xtime b ^^^ gf3 c ^^^ d ^^^ a) ^^^
      gf13 (xtime c ^^^ gf3 d ^^^ a ^^^ b) ^^^ gf9 (xtime d ^^^ gf3 a ^^^ b ^^^ c) =
      (gf14 (xtime a) ^^^ gf11 a ^^^ gf13 a ^^^ gf9 (gf3 a)) ^^^ (gf14 (gf3 b) ^^^ gf11 (xtime b) ^^^ gf13 b ^^^ gf9 b) ^^^
        (gf14 c ^^^ gf11 (gf3 c) ^^^ gf13 (xtime c) ^^^ gf9 c) ^^^ (gf14 d ^^^ gf11 d ^^^ gf13 (gf3 d) ^^^ gf9 (xtime d)) := by
    simp only [gf9_xor, gf11_xor, gf13_xor, gf14_xor]; ac_rfl
  rw [h, gf_diagonal, gf_first, gf_second, gf_third]
  simp

/-! ## Layers -/

@[simp] theorem length_xorBytes (x y : Bytes) : (xorBytes x y).length = min x.length y.length := by
  simp [xorBytes]

@[simp] theorem length_shiftRows (s : Bytes) : (shiftRows s).length = 16 := rfl

@[simp] theorem length_invShiftRows (s : Bytes) : (invShiftRows s).length = 16 := rfl

/-- AddRoundKey is its own inverse. -/
theorem xorBytes_xorBytes {s k : Bytes} (h : s.length = k.length) : xorBytes (xorBytes s k) k = s := by
  induction s generalizing k with
  | nil => simp [xorBytes]
  | cons x s ih =>
    cases k with
    | nil => simp at h
    | cons y k =>
      have : xorBytes (xorBytes s k) k = s := ih (by simpa using h)
      simp only [xorBytes, List.zipWith_cons_cons, BitVec.xor_assoc, BitVec.xor_self, BitVec.xor_zero]
      simpa [xorBytes] using this

/-- InvSubBytes undoes SubBytes. -/
theorem map_invSbox_map_sbox (s : Bytes) : (s.map sbox).map invSbox = s := by
  induction s with
  | nil => rfl
  | cons x s ih => simp only [List.map_cons, invSbox_sbox, ih]

/-- A block as its sixteen bytes. -/
theorem block_eq {s : Bytes} (h : s.length = 16) :
    s = [s.getD 0 0#8, s.getD 1 0#8, s.getD 2 0#8, s.getD 3 0#8, s.getD 4 0#8, s.getD 5 0#8, s.getD 6 0#8, s.getD 7 0#8,
      s.getD 8 0#8, s.getD 9 0#8, s.getD 10 0#8, s.getD 11 0#8, s.getD 12 0#8, s.getD 13 0#8, s.getD 14 0#8,
      s.getD 15 0#8] := by
  match s, h with
  | [_, _, _, _, _, _, _, _, _, _, _, _, _, _, _, _], _ => rfl

/-- InvShiftRows undoes ShiftRows. -/
theorem invShiftRows_shiftRows {s : Bytes} (h : s.length = 16) : invShiftRows (shiftRows s) = s :=
  (block_eq h).symm ▸ rfl

/-- MixColumns keeps the length of whole columns. -/
theorem length_mixColumns {s : Bytes} (h : s.length = 16) : (mixColumns s).length = 16 := by
  rw [block_eq h]; rfl

/-- InvMixColumns undoes MixColumns on one column. -/
theorem invMixColumns_column (a b c d : Byte) (rest : Bytes) :
    invMixColumns (mixColumns (a :: b :: c :: d :: rest)) = a :: b :: c :: d :: invMixColumns (mixColumns rest) := by
  have ha := gf_row a b c d
  have hb := gf_row b c d a
  have hc := gf_row c d a b
  have hd := gf_row d a b c
  simp only [mixColumns, invMixColumns, List.cons.injEq, and_true]
  refine ⟨Eq.trans ?_ ha, Eq.trans ?_ hb, Eq.trans ?_ hc, Eq.trans ?_ hd⟩ <;>
    (simp only [gf9_xor, gf11_xor, gf13_xor, gf14_xor]; ac_rfl)

/-- InvMixColumns undoes MixColumns. -/
theorem invMixColumns_mixColumns {s : Bytes} (h : s.length = 16) : invMixColumns (mixColumns s) = s := by
  rw [block_eq h]
  simp only [invMixColumns_column]
  rfl

/-- A round key is a block. -/
theorem length_nextRoundKey (rc : Byte) {k : Bytes} (h : k.length = 16) : (nextRoundKey rc k).length = 16 := by
  simp [nextRoundKey, xorBytes, slice, h]

end Sys2Proof.Machine
end

