-- ==== Sys2Proof/Laws/Memory.lean ====
section
/-! SUPPORT. The laws of key-sorted maps and of slot buffers: what reads see after writes, and that every operation keeps
the canonical form. -/

namespace Sys2Proof.Machine

/-! ## Key-sorted maps -/

theorem assocGet_put {α : Type} (m : List (Nat × α)) (a b : Nat) (x : α) :
    assocGet (assocPut m a x) b = if b = a then some x else assocGet m b := by
  induction m with
  | nil => simp [assocPut, assocGet, eq_comm]
  | cons c m ih =>
    obtain ⟨k, v⟩ := c
    simp only [assocPut]
    split
    · by_cases hb : b = a
      · simp [assocGet, hb]
      · simp [assocGet, hb, Ne.symm hb]
    · split
      · rename_i h
        subst h
        by_cases hb : b = a
        · simp [assocGet, hb]
        · simp [assocGet, hb, Ne.symm hb]
      · simp only [assocGet, ih]
        by_cases hk : k = b
        · have : ¬ b = a := by omega
          simp [hk, this]
        · simp [hk]

theorem assocGet_erase_ne {α : Type} (m : List (Nat × α)) {a b : Nat} (h : b ≠ a) :
    assocGet (assocErase m a) b = assocGet m b := by
  induction m with
  | nil => rfl
  | cons c m ih =>
    obtain ⟨k, v⟩ := c
    simp only [assocErase]
    split
    · have : ¬ k = b := by omega
      simp [assocGet, this]
    · simp [assocGet, ih]

/-- Below the least key nothing is listed. -/
theorem assocGet_lt {α : Type} {m : List (Nat × α)} {lo a : Nat} (hm : assocRising lo m = true) (ha : a < lo) :
    assocGet m a = none := by
  induction m generalizing lo with
  | nil => rfl
  | cons c m ih =>
    obtain ⟨k, v⟩ := c
    simp only [assocRising, Bool.and_eq_true, decide_eq_true_eq] at hm
    have : ¬ k = a := by omega
    simp [assocGet, this, ih hm.2 (by omega)]

theorem assocGet_erase_self {α : Type} {m : List (Nat × α)} {lo : Nat} (hm : assocRising lo m = true) (a : Nat) :
    assocGet (assocErase m a) a = none := by
  induction m generalizing lo with
  | nil => rfl
  | cons c m ih =>
    obtain ⟨k, v⟩ := c
    simp only [assocRising, Bool.and_eq_true, decide_eq_true_eq] at hm
    simp only [assocErase]
    split
    · rename_i h
      exact assocGet_lt hm.2 (by omega)
    · rename_i h
      simp [assocGet, h, ih hm.2]

theorem assocRising_mono {α : Type} {m : List (Nat × α)} {lo lo' : Nat} (h : lo' ≤ lo) (hm : assocRising lo m = true) :
    assocRising lo' m = true := by
  cases m with
  | nil => rfl
  | cons c m =>
    simp only [assocRising, Bool.and_eq_true, decide_eq_true_eq] at hm ⊢
    exact ⟨by omega, hm.2⟩

theorem assocRising_put {α : Type} {m : List (Nat × α)} {lo : Nat} (hm : assocRising lo m = true) {a : Nat} (ha : lo ≤ a)
    (x : α) : assocRising lo (assocPut m a x) = true := by
  induction m generalizing lo with
  | nil => simp [assocPut, assocRising, ha]
  | cons c m ih =>
    obtain ⟨k, v⟩ := c
    simp only [assocRising, Bool.and_eq_true, decide_eq_true_eq] at hm
    simp only [assocPut]
    split
    · simp only [assocRising, Bool.and_eq_true, decide_eq_true_eq]
      exact ⟨ha, by omega, hm.2⟩
    · split
      · rename_i h
        subst h
        simp only [assocRising, Bool.and_eq_true, decide_eq_true_eq]
        exact hm
      · simp only [assocRising, Bool.and_eq_true, decide_eq_true_eq]
        exact ⟨hm.1, ih hm.2 (by omega)⟩

theorem assocRising_erase {α : Type} {m : List (Nat × α)} {lo : Nat} (hm : assocRising lo m = true) (a : Nat) :
    assocRising lo (assocErase m a) = true := by
  induction m generalizing lo with
  | nil => rfl
  | cons c m ih =>
    obtain ⟨k, v⟩ := c
    simp only [assocRising, Bool.and_eq_true, decide_eq_true_eq] at hm
    simp only [assocErase]
    split
    · exact assocRising_mono (by omega) hm.2
    · simp only [assocRising, Bool.and_eq_true, decide_eq_true_eq]
      exact ⟨hm.1, ih hm.2⟩

/-- Setting an entry keeps a map canonical. -/
theorem assocWf_put {α : Type} {m : List (Nat × α)} (hm : assocWf m = true) (a : Nat) (x : α) :
    assocWf (assocPut m a x) = true := assocRising_put hm (Nat.zero_le a) x

/-- Removing an entry keeps a map canonical. -/
theorem assocWf_erase {α : Type} {m : List (Nat × α)} (hm : assocWf m = true) (a : Nat) :
    assocWf (assocErase m a) = true := assocRising_erase hm a

/-- Two canonical maps with the same entries are the same list. -/
theorem assoc_ext {α : Type} {m m' : List (Nat × α)} {lo : Nat} (hm : assocRising lo m = true)
    (hm' : assocRising lo m' = true) (h : ∀ a, assocGet m a = assocGet m' a) : m = m' := by
  induction m generalizing m' lo with
  | nil =>
    cases m' with
    | nil => rfl
    | cons c m' =>
      have := h c.1
      simp [assocGet] at this
  | cons c m ih =>
    obtain ⟨k, v⟩ := c
    cases m' with
    | nil =>
      have := h k
      simp [assocGet] at this
    | cons c' m' =>
      obtain ⟨k', v'⟩ := c'
      simp only [assocRising, Bool.and_eq_true, decide_eq_true_eq] at hm hm'
      have hk : k = k' := by
        rcases Nat.lt_trichotomy k k' with hlt | heq | hgt
        · have := h k
          have hne : ¬ k' = k := by omega
          simp [assocGet, hne, assocGet_lt hm'.2 (show k < k' + 1 by omega)] at this
        · exact heq
        · have := h k'
          have hne : ¬ k = k' := by omega
          simp [assocGet, hne, assocGet_lt hm.2 (show k' < k + 1 by omega)] at this
      subst hk
      have hv : v = v' := by simpa [assocGet] using h k
      subst hv
      congr 1
      refine ih hm.2 hm'.2 fun a => ?_
      by_cases ha : k = a
      · subst ha
        rw [assocGet_lt hm.2 (Nat.lt_succ_self k), assocGet_lt hm'.2 (Nat.lt_succ_self k)]
      · simpa [assocGet, ha] using h a

theorem mem_assocPut {α : Type} {m : List (Nat × α)} {a : Nat} {x : α} {c : Nat × α} (h : c ∈ assocPut m a x) :
    c = (a, x) ∨ c ∈ m := by
  induction m with
  | nil => simpa [assocPut] using h
  | cons d m ih =>
    obtain ⟨k, v⟩ := d
    simp only [assocPut] at h
    split at h
    · simpa using h
    · split at h
      · rcases List.mem_cons.1 h with h | h
        · exact .inl h
        · exact .inr (List.mem_cons_of_mem _ h)
      · rcases List.mem_cons.1 h with h | h
        · exact .inr (h ▸ List.mem_cons_self)
        · exact (ih h).imp id (List.mem_cons_of_mem _)

theorem mem_assocErase {α : Type} {m : List (Nat × α)} {a : Nat} {c : Nat × α} (h : c ∈ assocErase m a) : c ∈ m := by
  induction m with
  | nil => simp [assocErase] at h
  | cons d m ih =>
    obtain ⟨k, v⟩ := d
    simp only [assocErase] at h
    split at h
    · exact List.mem_cons_of_mem _ h
    · rcases List.mem_cons.1 h with h | h
      · exact h ▸ List.mem_cons_self
      · exact List.mem_cons_of_mem _ (ih h)

/-! ## Memories -/

theorem Memory.wf_iff {m : Memory} : m.wf = true ↔ assocWf m = true ∧ ∀ c ∈ m, c.2 ≠ unlistedByte := by
  simp [Memory.wf]

theorem Memory.below_iff {m : Memory} {n : Nat} : m.below n = true ↔ ∀ c ∈ m, c.1 < n := by
  simp [Memory.below]

/-- The empty memory is canonical. -/
theorem Memory.wf_nil : Memory.wf [] = true := rfl

/-- Storing a byte keeps the canonical form. -/
theorem Memory.wf_put {m : Memory} (hm : m.wf = true) (a : Nat) (b : Byte) : (m.put a b).wf = true := by
  rw [Memory.wf_iff] at *
  unfold Memory.put
  split
  · exact ⟨assocWf_erase hm.1 a, fun c hc => hm.2 c (mem_assocErase hc)⟩
  · rename_i hb
    refine ⟨assocWf_put hm.1 a b, fun c hc => ?_⟩
    rcases mem_assocPut hc with rfl | hc
    · exact hb
    · exact hm.2 c hc

/-- Storing a byte below a bound keeps the bound. -/
theorem Memory.below_put {m : Memory} {n a : Nat} (hm : m.below n = true) (ha : a < n) (b : Byte) :
    (m.put a b).below n = true := by
  rw [Memory.below_iff] at *
  unfold Memory.put
  split
  · exact fun c hc => hm c (mem_assocErase hc)
  · intro c hc
    rcases mem_assocPut hc with rfl | hc
    · exact ha
    · exact hm c hc

/-- What one byte reads as after one store. -/
theorem Memory.get_put {m : Memory} (hm : m.wf = true) (a a' : Nat) (b : Byte) :
    (m.put a b).get a' = if a' = a then b else m.get a' := by
  rw [Memory.wf_iff] at hm
  unfold Memory.put Memory.get
  by_cases hb : b = unlistedByte
  · by_cases ha : a' = a
    · subst ha
      simp [hb, assocGet_erase_self hm.1]
    · simp [hb, ha, assocGet_erase_ne m ha]
  · by_cases ha : a' = a
    · simp [hb, ha, assocGet_put]
    · simp [hb, ha, assocGet_put]

/-- Storing a byte string keeps the canonical form. -/
theorem Memory.wf_write {m : Memory} (hm : m.wf = true) (off : Nat) (v : Bytes) : (m.write off v).wf = true := by
  induction v generalizing m off with
  | nil => exact hm
  | cons b v ih => exact ih (Memory.wf_put hm off b) (off + 1)

/-- Storing a byte string inside a bound keeps the bound. -/
theorem Memory.below_write {m : Memory} {n off : Nat} {v : Bytes} (hm : m.below n = true) (h : off + v.length ≤ n) :
    (m.write off v).below n = true := by
  induction v generalizing m off with
  | nil => exact hm
  | cons b v ih =>
    simp only [List.length_cons] at h
    exact ih (Memory.below_put hm (by omega) b) (by omega)

/-- What one byte reads as after a byte string is stored. -/
theorem Memory.get_write {m : Memory} (hm : m.wf = true) (off a : Nat) (v : Bytes) :
    (m.write off v).get a = if off ≤ a ∧ a < off + v.length then v.getD (a - off) 0#8 else m.get a := by
  induction v generalizing m off with
  | nil =>
    have : ¬ (off ≤ a ∧ a < off) := by omega
    simp [Memory.write, this]
  | cons b v ih =>
    simp only [Memory.write, List.length_cons]
    rw [ih (Memory.wf_put hm off b), Memory.get_put hm]
    by_cases h : a = off
    · subst h
      have : ¬ (a + 1 ≤ a ∧ a < a + 1 + v.length) := by omega
      rw [if_neg this, if_pos rfl, if_pos (by omega)]
      simp
    · by_cases h2 : off ≤ a ∧ a < off + (v.length + 1)
      · have h3 : off + 1 ≤ a ∧ a < off + 1 + v.length := by omega
        have h4 : a - off = (a - (off + 1)) + 1 := by omega
        rw [if_pos h2, if_pos h3, h4, List.getD_cons_succ]
      · have h3 : ¬ (off + 1 ≤ a ∧ a < off + 1 + v.length) := by omega
        rw [if_neg h2, if_neg h3, if_neg h]

@[simp] theorem Memory.read_length (m : Memory) (off n : Nat) : (m.read off n).length = n := by
  induction n generalizing off with
  | zero => rfl
  | succ n ih => simp [Memory.read, ih]

/-- A read sees the bytes in index order (R66). -/
theorem Memory.getD_read (m : Memory) (off n i : Nat) (h : i < n) : (m.read off n).getD i 0#8 = m.get (off + i) := by
  induction n generalizing off i with
  | zero => omega
  | succ n ih =>
    cases i with
    | zero => simp [Memory.read]
    | succ i =>
      simp only [Memory.read, List.getD_cons_succ]
      rw [ih (off + 1) i (by omega)]
      congr 1
      omega

/-- A read of what was just stored gives the bytes stored. -/
theorem Memory.read_write_self {m : Memory} (hm : m.wf = true) (off : Nat) (v : Bytes) :
    (m.write off v).read off v.length = v := by
  apply List.ext_getElem (by simp)
  intro i h1 h2
  have h3 : i < v.length := h2
  have := Memory.getD_read (m.write off v) off v.length i h3
  rw [Memory.get_write hm, if_pos (by omega)] at this
  simpa [List.getD_eq_getElem?_getD, h3] using this

/-- Equal bytes everywhere make equal memories. -/
theorem Memory.ext_get {m m' : Memory} (hm : m.wf = true) (hm' : m'.wf = true) (h : ∀ a, m.get a = m'.get a) :
    m = m' := by
  rw [Memory.wf_iff] at hm hm'
  refine assoc_ext hm.1 hm'.1 fun a => ?_
  have key : ∀ {m : Memory}, (∀ c ∈ m, c.2 ≠ unlistedByte) → assocGet m a ≠ some unlistedByte := by
    intro m hw
    induction m with
    | nil => simp [assocGet]
    | cons c m ih =>
      obtain ⟨k, v⟩ := c
      simp only [assocGet]
      split
      · have := hw (k, v) List.mem_cons_self
        simpa using this
      · exact ih fun c hc => hw c (List.mem_cons_of_mem _ hc)
  have h1 := h a
  have h2 := key hm.2
  have h3 := key hm'.2
  unfold Memory.get at h1
  cases hx : assocGet m a <;> cases hy : assocGet m' a <;> simp_all

/-! ## A blob as a memory -/

theorem Memory.cells_rising (off : Nat) (bs : Bytes) : assocRising off (Memory.cells off bs) = true := by
  induction bs generalizing off with
  | nil => rfl
  | cons b bs ih =>
    simp only [Memory.cells]
    split
    · exact assocRising_mono (Nat.le_succ off) (ih (off + 1))
    · simp [assocRising, ih]

theorem Memory.mem_cells {off : Nat} {bs : Bytes} {c : Host.Cell} (h : c ∈ Memory.cells off bs) :
    c.1 < off + bs.length ∧ c.2 ≠ unlistedByte := by
  induction bs generalizing off with
  | nil => simp [Memory.cells] at h
  | cons b bs ih =>
    simp only [Memory.cells] at h
    simp only [List.length_cons]
    split at h
    · have := ih h
      exact ⟨by omega, this.2⟩
    · rename_i hb
      rcases List.mem_cons.1 h with rfl | h
      · exact ⟨by simp, hb⟩
      · have := ih h
        exact ⟨by omega, this.2⟩

/-- A loaded blob is a canonical memory (R73). -/
theorem Memory.wf_ofBytes (bs : Bytes) : (Memory.ofBytes bs).wf = true :=
  Memory.wf_iff.2 ⟨Memory.cells_rising 0 bs, fun _ hc => (Memory.mem_cells hc).2⟩

/-- A loaded blob lies inside its length. -/
theorem Memory.below_ofBytes (bs : Bytes) : (Memory.ofBytes bs).below bs.length = true :=
  Memory.below_iff.2 fun _ hc => by simpa using (Memory.mem_cells hc).1

theorem Memory.get_cells (off a : Nat) (bs : Bytes) (h : off ≤ a) :
    Memory.get (Memory.cells off bs) a = bs.getD (a - off) 0#8 := by
  induction bs generalizing off with
  | nil => simp [Memory.cells, Memory.get, assocGet, unlistedByte]
  | cons b bs ih =>
    by_cases ha : a = off
    · subst ha
      simp only [Memory.cells, Nat.sub_self, List.getD_cons_zero]
      split
      · rename_i hb
        rw [Memory.get, assocGet_lt (Memory.cells_rising (a + 1) bs) (Nat.lt_succ_self a), hb]
        rfl
      · simp [Memory.get, assocGet]
    · have h4 : a - off = (a - (off + 1)) + 1 := by omega
      rw [h4, List.getD_cons_succ, ← ih (off + 1) (by omega)]
      simp only [Memory.cells]
      split
      · rfl
      · have : ¬ off = a := by omega
        simp [Memory.get, assocGet, this]

/-- The bytes of a loaded blob (R73). -/
theorem Memory.get_ofBytes (bs : Bytes) (a : Nat) : (Memory.ofBytes bs).get a = bs.getD a 0#8 :=
  Memory.get_cells 0 a bs (Nat.zero_le a)

/-- Reading a part of a loaded blob gives that part. -/
theorem Memory.read_ofBytes (bs : Bytes) (off n : Nat) (h : off + n ≤ bs.length) :
    (Memory.ofBytes bs).read off n = slice bs off n := by
  apply List.ext_getElem (by simp [slice]; omega)
  intro i h1 h2
  have h3 : i < n := by simpa using h1
  have := Memory.getD_read (Memory.ofBytes bs) off n i h3
  rw [Memory.get_ofBytes] at this
  simp only [List.getD_eq_getElem?_getD, h1, List.getElem?_eq_getElem, Option.getD_some,
    show off + i < bs.length by omega] at this
  simp [slice, this]

/-! ## The machine right after reset -/

/-- Every slot buffer is canonical right after reset. -/
theorem reset_memory_wf (c : Params) (files : List (Nat × Bytes)) :
    ∀ x ∈ (State.resetWith c files).slots, x.data.wf = true := by
  intro x hx
  rw [List.eq_of_mem_replicate hx]
  rfl

end Sys2Proof.Machine
end

