-- ==== Sys2Proof/Laws/State.lean ====
section
/-! SUPPORT. What each update of the state does to each field: one lemma per field per update, so that no proof unfolds a
record update. -/

namespace Sys2Proof.Machine

/-! ### ending with a result -/

@[simp] theorem State.ends_cfg (s : State) (r : Result) : (s.ends r).cfg = s.cfg := rfl
@[simp] theorem State.ends_activated (s : State) (r : Result) : (s.ends r).activated = s.activated := rfl
@[simp] theorem State.ends_slots (s : State) (r : Result) : (s.ends r).slots = s.slots := rfl
@[simp] theorem State.ends_orderCounter (s : State) (r : Result) : (s.ends r).orderCounter = s.orderCounter := rfl
@[simp] theorem State.ends_notif (s : State) (r : Result) : (s.ends r).notif = s.notif := rfl
@[simp] theorem State.ends_counter (s : State) (r : Result) : (s.ends r).counter = s.counter := rfl
@[simp] theorem State.ends_led (s : State) (r : Result) : (s.ends r).led = s.led := rfl
@[simp] theorem State.ends_prng (s : State) (r : Result) : (s.ends r).prng = s.prng := rfl
@[simp] theorem State.ends_tq (s : State) (r : Result) : (s.ends r).tq = s.tq := rfl
@[simp] theorem State.ends_inFlight (s : State) (r : Result) : (s.ends r).inFlight = s.inFlight := rfl
@[simp] theorem State.ends_storage (s : State) (r : Result) : (s.ends r).storage = s.storage := rfl
@[simp] theorem State.ends_storeAnswer (s : State) (r : Result) : (s.ends r).storeAnswer = s.storeAnswer := rfl
@[simp] theorem State.ends_storeCalls (s : State) (r : Result) : (s.ends r).storeCalls = s.storeCalls := rfl
@[simp] theorem State.ends_garbage (s : State) (r : Result) : (s.ends r).garbage = s.garbage := rfl
@[simp] theorem State.ends_inbox (s : State) (r : Result) : (s.ends r).inbox = s.inbox := rfl
@[simp] theorem State.ends_result (s : State) (r : Result) : (s.ends r).result = r := rfl

/-! ### ending with a result triple -/

@[simp] theorem State.respond_cfg (s : State) (b : Bytes) (d : Nat) : (s.respond b d).cfg = s.cfg := rfl
@[simp] theorem State.respond_activated (s : State) (b : Bytes) (d : Nat) : (s.respond b d).activated = s.activated := rfl
@[simp] theorem State.respond_slots (s : State) (b : Bytes) (d : Nat) : (s.respond b d).slots = s.slots := rfl
@[simp] theorem State.respond_orderCounter (s : State) (b : Bytes) (d : Nat) : (s.respond b d).orderCounter = s.orderCounter := rfl
@[simp] theorem State.respond_notif (s : State) (b : Bytes) (d : Nat) : (s.respond b d).notif = s.notif := rfl
@[simp] theorem State.respond_counter (s : State) (b : Bytes) (d : Nat) : (s.respond b d).counter = s.counter := rfl
@[simp] theorem State.respond_led (s : State) (b : Bytes) (d : Nat) : (s.respond b d).led = s.led := rfl
@[simp] theorem State.respond_prng (s : State) (b : Bytes) (d : Nat) : (s.respond b d).prng = s.prng := rfl
@[simp] theorem State.respond_tq (s : State) (b : Bytes) (d : Nat) : (s.respond b d).tq = s.tq := rfl
@[simp] theorem State.respond_inFlight (s : State) (b : Bytes) (d : Nat) : (s.respond b d).inFlight = s.inFlight := rfl
@[simp] theorem State.respond_storage (s : State) (b : Bytes) (d : Nat) : (s.respond b d).storage = s.storage := rfl
@[simp] theorem State.respond_storeAnswer (s : State) (b : Bytes) (d : Nat) : (s.respond b d).storeAnswer = s.storeAnswer := rfl
@[simp] theorem State.respond_storeCalls (s : State) (b : Bytes) (d : Nat) : (s.respond b d).storeCalls = s.storeCalls := rfl
@[simp] theorem State.respond_garbage (s : State) (b : Bytes) (d : Nat) : (s.respond b d).garbage = s.garbage := rfl
@[simp] theorem State.respond_inbox (s : State) (b : Bytes) (d : Nat) : (s.respond b d).inbox = s.inbox := rfl
@[simp] theorem State.respond_result (s : State) (b : Bytes) (d : Nat) : (s.respond b d).result = .triple b b.length d := rfl

/-! ### ending in NoResponse -/

@[simp] theorem State.ignored_cfg (s : State) : (s.ignored).cfg = s.cfg := rfl
@[simp] theorem State.ignored_activated (s : State) : (s.ignored).activated = s.activated := rfl
@[simp] theorem State.ignored_slots (s : State) : (s.ignored).slots = s.slots := rfl
@[simp] theorem State.ignored_orderCounter (s : State) : (s.ignored).orderCounter = s.orderCounter := rfl
@[simp] theorem State.ignored_notif (s : State) : (s.ignored).notif = s.notif := rfl
@[simp] theorem State.ignored_counter (s : State) : (s.ignored).counter = s.counter := rfl
@[simp] theorem State.ignored_led (s : State) : (s.ignored).led = s.led := rfl
@[simp] theorem State.ignored_prng (s : State) : (s.ignored).prng = s.prng := rfl
@[simp] theorem State.ignored_tq (s : State) : (s.ignored).tq = s.tq := rfl
@[simp] theorem State.ignored_inFlight (s : State) : (s.ignored).inFlight = s.inFlight := rfl
@[simp] theorem State.ignored_storage (s : State) : (s.ignored).storage = s.storage := rfl
@[simp] theorem State.ignored_storeAnswer (s : State) : (s.ignored).storeAnswer = s.storeAnswer := rfl
@[simp] theorem State.ignored_storeCalls (s : State) : (s.ignored).storeCalls = s.storeCalls := rfl
@[simp] theorem State.ignored_garbage (s : State) : (s.ignored).garbage = s.garbage := rfl
@[simp] theorem State.ignored_inbox (s : State) : (s.ignored).inbox = s.inbox := rfl
@[simp] theorem State.ignored_result (s : State) : (s.ignored).result = .noResponse := rfl

/-! ### replacing a slot -/

@[simp] theorem State.setSlot_cfg (s : State) (i : Nat) (x : Slot) : (s.setSlot i x).cfg = s.cfg := rfl
@[simp] theorem State.setSlot_activated (s : State) (i : Nat) (x : Slot) : (s.setSlot i x).activated = s.activated := rfl
@[simp] theorem State.setSlot_slots (s : State) (i : Nat) (x : Slot) : (s.setSlot i x).slots = s.slots.set i x := rfl
@[simp] theorem State.setSlot_orderCounter (s : State) (i : Nat) (x : Slot) : (s.setSlot i x).orderCounter = s.orderCounter := rfl
@[simp] theorem State.setSlot_notif (s : State) (i : Nat) (x : Slot) : (s.setSlot i x).notif = s.notif := rfl
@[simp] theorem State.setSlot_counter (s : State) (i : Nat) (x : Slot) : (s.setSlot i x).counter = s.counter := rfl
@[simp] theorem State.setSlot_led (s : State) (i : Nat) (x : Slot) : (s.setSlot i x).led = s.led := rfl
@[simp] theorem State.setSlot_prng (s : State) (i : Nat) (x : Slot) : (s.setSlot i x).prng = s.prng := rfl
@[simp] theorem State.setSlot_tq (s : State) (i : Nat) (x : Slot) : (s.setSlot i x).tq = s.tq := rfl
@[simp] theorem State.setSlot_inFlight (s : State) (i : Nat) (x : Slot) : (s.setSlot i x).inFlight = s.inFlight := rfl
@[simp] theorem State.setSlot_storage (s : State) (i : Nat) (x : Slot) : (s.setSlot i x).storage = s.storage := rfl
@[simp] theorem State.setSlot_storeAnswer (s : State) (i : Nat) (x : Slot) : (s.setSlot i x).storeAnswer = s.storeAnswer := rfl
@[simp] theorem State.setSlot_storeCalls (s : State) (i : Nat) (x : Slot) : (s.setSlot i x).storeCalls = s.storeCalls := rfl
@[simp] theorem State.setSlot_garbage (s : State) (i : Nat) (x : Slot) : (s.setSlot i x).garbage = s.garbage := rfl
@[simp] theorem State.setSlot_inbox (s : State) (i : Nat) (x : Slot) : (s.setSlot i x).inbox = s.inbox := rfl
@[simp] theorem State.setSlot_result (s : State) (i : Nat) (x : Slot) : (s.setSlot i x).result = s.result := rfl

/-! ### writing a slot buffer -/

@[simp] theorem State.memWrite_cfg (s : State) (i off : Nat) (v : Bytes) : (s.memWrite i off v).cfg = s.cfg := rfl
@[simp] theorem State.memWrite_activated (s : State) (i off : Nat) (v : Bytes) : (s.memWrite i off v).activated = s.activated := rfl
@[simp] theorem State.memWrite_slots (s : State) (i off : Nat) (v : Bytes) : (s.memWrite i off v).slots = s.slots.set i { s.slotAt i with data := (s.slotAt i).data.write off v } := rfl
@[simp] theorem State.memWrite_orderCounter (s : State) (i off : Nat) (v : Bytes) : (s.memWrite i off v).orderCounter = s.orderCounter := rfl
@[simp] theorem State.memWrite_notif (s : State) (i off : Nat) (v : Bytes) : (s.memWrite i off v).notif = s.notif := rfl
@[simp] theorem State.memWrite_counter (s : State) (i off : Nat) (v : Bytes) : (s.memWrite i off v).counter = s.counter := rfl
@[simp] theorem State.memWrite_led (s : State) (i off : Nat) (v : Bytes) : (s.memWrite i off v).led = s.led := rfl
@[simp] theorem State.memWrite_prng (s : State) (i off : Nat) (v : Bytes) : (s.memWrite i off v).prng = s.prng := rfl
@[simp] theorem State.memWrite_tq (s : State) (i off : Nat) (v : Bytes) : (s.memWrite i off v).tq = s.tq := rfl
@[simp] theorem State.memWrite_inFlight (s : State) (i off : Nat) (v : Bytes) : (s.memWrite i off v).inFlight = s.inFlight := rfl
@[simp] theorem State.memWrite_storage (s : State) (i off : Nat) (v : Bytes) : (s.memWrite i off v).storage = s.storage := rfl
@[simp] theorem State.memWrite_storeAnswer (s : State) (i off : Nat) (v : Bytes) : (s.memWrite i off v).storeAnswer = s.storeAnswer := rfl
@[simp] theorem State.memWrite_storeCalls (s : State) (i off : Nat) (v : Bytes) : (s.memWrite i off v).storeCalls = s.storeCalls := rfl
@[simp] theorem State.memWrite_garbage (s : State) (i off : Nat) (v : Bytes) : (s.memWrite i off v).garbage = s.garbage := rfl
@[simp] theorem State.memWrite_inbox (s : State) (i off : Nat) (v : Bytes) : (s.memWrite i off v).inbox = s.inbox := rfl
@[simp] theorem State.memWrite_result (s : State) (i off : Nat) (v : Bytes) : (s.memWrite i off v).result = s.result := rfl

/-! ### accepting a request -/

@[simp] theorem State.accept_cfg (s : State) (r : Request) (rest : List Request) : (s.accept r rest).cfg = s.cfg := rfl
@[simp] theorem State.accept_activated (s : State) (r : Request) (rest : List Request) : (s.accept r rest).activated = s.activated := rfl
@[simp] theorem State.accept_slots (s : State) (r : Request) (rest : List Request) : (s.accept r rest).slots = s.slots := rfl
@[simp] theorem State.accept_orderCounter (s : State) (r : Request) (rest : List Request) : (s.accept r rest).orderCounter = s.orderCounter := rfl
@[simp] theorem State.accept_notif (s : State) (r : Request) (rest : List Request) : (s.accept r rest).notif = s.notif := rfl
@[simp] theorem State.accept_counter (s : State) (r : Request) (rest : List Request) : (s.accept r rest).counter = s.counter := rfl
@[simp] theorem State.accept_led (s : State) (r : Request) (rest : List Request) : (s.accept r rest).led = s.led := rfl
@[simp] theorem State.accept_prng (s : State) (r : Request) (rest : List Request) : (s.accept r rest).prng = s.prng := rfl
@[simp] theorem State.accept_tq (s : State) (r : Request) (rest : List Request) : (s.accept r rest).tq = s.tq := rfl
@[simp] theorem State.accept_inFlight (s : State) (r : Request) (rest : List Request) : (s.accept r rest).inFlight = r.inFlight := rfl
@[simp] theorem State.accept_storage (s : State) (r : Request) (rest : List Request) : (s.accept r rest).storage = s.storage := rfl
@[simp] theorem State.accept_storeAnswer (s : State) (r : Request) (rest : List Request) : (s.accept r rest).storeAnswer = r.storeAnswer := rfl
@[simp] theorem State.accept_storeCalls (s : State) (r : Request) (rest : List Request) : (s.accept r rest).storeCalls = [] := rfl
@[simp] theorem State.accept_garbage (s : State) (r : Request) (rest : List Request) : (s.accept r rest).garbage = r.garbage := rfl
@[simp] theorem State.accept_inbox (s : State) (r : Request) (rest : List Request) : (s.accept r rest).inbox = rest := rfl
@[simp] theorem State.accept_result (s : State) (r : Request) (rest : List Request) : (s.accept r rest).result = s.result := rfl

/-! ### placing a request -/

@[simp] theorem State.withRequest_cfg (s : State) (r : Request) : (s.withRequest r).cfg = s.cfg := rfl
@[simp] theorem State.withRequest_activated (s : State) (r : Request) : (s.withRequest r).activated = s.activated := rfl
@[simp] theorem State.withRequest_slots (s : State) (r : Request) : (s.withRequest r).slots = s.slots := rfl
@[simp] theorem State.withRequest_orderCounter (s : State) (r : Request) : (s.withRequest r).orderCounter = s.orderCounter := rfl
@[simp] theorem State.withRequest_notif (s : State) (r : Request) : (s.withRequest r).notif = s.notif := rfl
@[simp] theorem State.withRequest_counter (s : State) (r : Request) : (s.withRequest r).counter = s.counter := rfl
@[simp] theorem State.withRequest_led (s : State) (r : Request) : (s.withRequest r).led = s.led := rfl
@[simp] theorem State.withRequest_prng (s : State) (r : Request) : (s.withRequest r).prng = s.prng := rfl
@[simp] theorem State.withRequest_tq (s : State) (r : Request) : (s.withRequest r).tq = s.tq := rfl
@[simp] theorem State.withRequest_inFlight (s : State) (r : Request) : (s.withRequest r).inFlight = s.inFlight := rfl
@[simp] theorem State.withRequest_storage (s : State) (r : Request) : (s.withRequest r).storage = s.storage := rfl
@[simp] theorem State.withRequest_storeAnswer (s : State) (r : Request) : (s.withRequest r).storeAnswer = s.storeAnswer := rfl
@[simp] theorem State.withRequest_storeCalls (s : State) (r : Request) : (s.withRequest r).storeCalls = s.storeCalls := rfl
@[simp] theorem State.withRequest_garbage (s : State) (r : Request) : (s.withRequest r).garbage = s.garbage := rfl
@[simp] theorem State.withRequest_inbox (s : State) (r : Request) : (s.withRequest r).inbox = r :: s.inbox := rfl
@[simp] theorem State.withRequest_result (s : State) (r : Request) : (s.withRequest r).result = s.result := rfl

/-! ### Activate (R186) -/

@[simp] theorem activateOp_cfg (s : State) : (activateOp s).cfg = s.cfg := rfl
@[simp] theorem activateOp_activated (s : State) : (activateOp s).activated = true := rfl
@[simp] theorem activateOp_slots (s : State) : (activateOp s).slots = s.slots := rfl
@[simp] theorem activateOp_orderCounter (s : State) : (activateOp s).orderCounter = s.orderCounter := rfl
@[simp] theorem activateOp_notif (s : State) : (activateOp s).notif = s.notif := rfl
@[simp] theorem activateOp_counter (s : State) : (activateOp s).counter = s.counter := rfl
@[simp] theorem activateOp_led (s : State) : (activateOp s).led = s.led := rfl
@[simp] theorem activateOp_prng (s : State) : (activateOp s).prng = s.prng := rfl
@[simp] theorem activateOp_tq (s : State) : (activateOp s).tq = s.tq := rfl
@[simp] theorem activateOp_inFlight (s : State) : (activateOp s).inFlight = s.inFlight := rfl
@[simp] theorem activateOp_storage (s : State) : (activateOp s).storage = s.storage := rfl
@[simp] theorem activateOp_storeAnswer (s : State) : (activateOp s).storeAnswer = s.storeAnswer := rfl
@[simp] theorem activateOp_storeCalls (s : State) : (activateOp s).storeCalls = s.storeCalls := rfl
@[simp] theorem activateOp_garbage (s : State) : (activateOp s).garbage = s.garbage := rfl
@[simp] theorem activateOp_inbox (s : State) : (activateOp s).inbox = s.inbox := rfl
@[simp] theorem activateOp_result (s : State) : (activateOp s).result = s.result := rfl

/-! ### GenerateSeed (R160) -/

@[simp] theorem generateSeedOp_cfg (x : U32) (s : State) : (generateSeedOp x s).cfg = s.cfg := rfl
@[simp] theorem generateSeedOp_activated (x : U32) (s : State) : (generateSeedOp x s).activated = s.activated := rfl
@[simp] theorem generateSeedOp_slots (x : U32) (s : State) : (generateSeedOp x s).slots = s.slots := rfl
@[simp] theorem generateSeedOp_orderCounter (x : U32) (s : State) : (generateSeedOp x s).orderCounter = s.orderCounter := rfl
@[simp] theorem generateSeedOp_notif (x : U32) (s : State) : (generateSeedOp x s).notif = s.notif := rfl
@[simp] theorem generateSeedOp_counter (x : U32) (s : State) : (generateSeedOp x s).counter = s.counter := rfl
@[simp] theorem generateSeedOp_led (x : U32) (s : State) : (generateSeedOp x s).led = s.led := rfl
@[simp] theorem generateSeedOp_prng (x : U32) (s : State) : (generateSeedOp x s).prng = prngDiscard s.cfg.prngWarmup (prngSeeded s.cfg x) := rfl
@[simp] theorem generateSeedOp_tq (x : U32) (s : State) : (generateSeedOp x s).tq = s.tq := rfl
@[simp] theorem generateSeedOp_inFlight (x : U32) (s : State) : (generateSeedOp x s).inFlight = s.inFlight := rfl
@[simp] theorem generateSeedOp_storage (x : U32) (s : State) : (generateSeedOp x s).storage = s.storage := rfl
@[simp] theorem generateSeedOp_storeAnswer (x : U32) (s : State) : (generateSeedOp x s).storeAnswer = s.storeAnswer := rfl
@[simp] theorem generateSeedOp_storeCalls (x : U32) (s : State) : (generateSeedOp x s).storeCalls = s.storeCalls := rfl
@[simp] theorem generateSeedOp_garbage (x : U32) (s : State) : (generateSeedOp x s).garbage = s.garbage := rfl
@[simp] theorem generateSeedOp_inbox (x : U32) (s : State) : (generateSeedOp x s).inbox = s.inbox := rfl
@[simp] theorem generateSeedOp_result (x : U32) (s : State) : (generateSeedOp x s).result = s.result := rfl

/-! ### writing an LED zone (R303) -/

@[simp] theorem setLed_cfg (s : State) (ch sel : Byte) (v : Bytes) : (setLed s ch sel v).cfg = s.cfg := rfl
@[simp] theorem setLed_activated (s : State) (ch sel : Byte) (v : Bytes) : (setLed s ch sel v).activated = s.activated := rfl
@[simp] theorem setLed_slots (s : State) (ch sel : Byte) (v : Bytes) : (setLed s ch sel v).slots = s.slots := rfl
@[simp] theorem setLed_orderCounter (s : State) (ch sel : Byte) (v : Bytes) : (setLed s ch sel v).orderCounter = s.orderCounter := rfl
@[simp] theorem setLed_notif (s : State) (ch sel : Byte) (v : Bytes) : (setLed s ch sel v).notif = s.notif := rfl
@[simp] theorem setLed_counter (s : State) (ch sel : Byte) (v : Bytes) : (setLed s ch sel v).counter = s.counter := rfl
@[simp] theorem setLed_led (s : State) (ch sel : Byte) (v : Bytes) : (setLed s ch sel v).led = assocPut s.led (zoneKey ch sel) v := rfl
@[simp] theorem setLed_prng (s : State) (ch sel : Byte) (v : Bytes) : (setLed s ch sel v).prng = s.prng := rfl
@[simp] theorem setLed_tq (s : State) (ch sel : Byte) (v : Bytes) : (setLed s ch sel v).tq = s.tq := rfl
@[simp] theorem setLed_inFlight (s : State) (ch sel : Byte) (v : Bytes) : (setLed s ch sel v).inFlight = s.inFlight := rfl
@[simp] theorem setLed_storage (s : State) (ch sel : Byte) (v : Bytes) : (setLed s ch sel v).storage = s.storage := rfl
@[simp] theorem setLed_storeAnswer (s : State) (ch sel : Byte) (v : Bytes) : (setLed s ch sel v).storeAnswer = s.storeAnswer := rfl
@[simp] theorem setLed_storeCalls (s : State) (ch sel : Byte) (v : Bytes) : (setLed s ch sel v).storeCalls = s.storeCalls := rfl
@[simp] theorem setLed_garbage (s : State) (ch sel : Byte) (v : Bytes) : (setLed s ch sel v).garbage = s.garbage := rfl
@[simp] theorem setLed_inbox (s : State) (ch sel : Byte) (v : Bytes) : (setLed s ch sel v).inbox = s.inbox := rfl
@[simp] theorem setLed_result (s : State) (ch sel : Byte) (v : Bytes) : (setLed s ch sel v).result = s.result := rfl

/-! ### Deactivate (R187) -/

@[simp] theorem deactivateOp_cfg (s : State) : (deactivateOp s).cfg = s.cfg := by
  unfold deactivateOp; cases s.cfg.family <;> rfl
@[simp] theorem deactivateOp_activated (s : State) : (deactivateOp s).activated = false := by
  unfold deactivateOp; cases s.cfg.family <;> rfl
theorem deactivateOp_slots (s : State) :
    (deactivateOp s).slots = match s.cfg.family with | .a => s.slots | .b => s.slots.map collapseSlot := by
  unfold deactivateOp; cases s.cfg.family <;> rfl
@[simp] theorem deactivateOp_orderCounter (s : State) : (deactivateOp s).orderCounter = s.orderCounter := by
  unfold deactivateOp; cases s.cfg.family <;> rfl
@[simp] theorem deactivateOp_notif (s : State) : (deactivateOp s).notif = s.notif := by
  unfold deactivateOp; cases s.cfg.family <;> rfl
@[simp] theorem deactivateOp_counter (s : State) : (deactivateOp s).counter = s.counter := by
  unfold deactivateOp; cases s.cfg.family <;> rfl
@[simp] theorem deactivateOp_led (s : State) : (deactivateOp s).led = s.led := by
  unfold deactivateOp; cases s.cfg.family <;> rfl
@[simp] theorem deactivateOp_prng (s : State) : (deactivateOp s).prng = s.prng := by
  unfold deactivateOp; cases s.cfg.family <;> rfl
@[simp] theorem deactivateOp_tq (s : State) : (deactivateOp s).tq = s.tq := by
  unfold deactivateOp; cases s.cfg.family <;> rfl
@[simp] theorem deactivateOp_inFlight (s : State) : (deactivateOp s).inFlight = s.inFlight := by
  unfold deactivateOp; cases s.cfg.family <;> rfl
@[simp] theorem deactivateOp_storage (s : State) : (deactivateOp s).storage = s.storage := by
  unfold deactivateOp; cases s.cfg.family <;> rfl
@[simp] theorem deactivateOp_storeAnswer (s : State) : (deactivateOp s).storeAnswer = s.storeAnswer := by
  unfold deactivateOp; cases s.cfg.family <;> rfl
@[simp] theorem deactivateOp_storeCalls (s : State) : (deactivateOp s).storeCalls = s.storeCalls := by
  unfold deactivateOp; cases s.cfg.family <;> rfl
@[simp] theorem deactivateOp_garbage (s : State) : (deactivateOp s).garbage = s.garbage := by
  unfold deactivateOp; cases s.cfg.family <;> rfl
@[simp] theorem deactivateOp_inbox (s : State) : (deactivateOp s).inbox = s.inbox := by
  unfold deactivateOp; cases s.cfg.family <;> rfl
@[simp] theorem deactivateOp_result (s : State) : (deactivateOp s).result = s.result := by
  unfold deactivateOp; cases s.cfg.family <;> rfl

/-! ### closing a handle (R204) -/

@[simp] theorem closeHandle_cfg (s : State) (h : Option Nat) : (closeHandle s h).cfg = s.cfg := by cases h <;> rfl
@[simp] theorem closeHandle_activated (s : State) (h : Option Nat) : (closeHandle s h).activated = s.activated := by cases h <;> rfl
@[simp] theorem closeHandle_slots (s : State) (h : Option Nat) : (closeHandle s h).slots = s.slots := by cases h <;> rfl
@[simp] theorem closeHandle_orderCounter (s : State) (h : Option Nat) : (closeHandle s h).orderCounter = s.orderCounter := by cases h <;> rfl
@[simp] theorem closeHandle_notif (s : State) (h : Option Nat) : (closeHandle s h).notif = s.notif := by cases h <;> rfl
@[simp] theorem closeHandle_counter (s : State) (h : Option Nat) : (closeHandle s h).counter = s.counter := by cases h <;> rfl
@[simp] theorem closeHandle_led (s : State) (h : Option Nat) : (closeHandle s h).led = s.led := by cases h <;> rfl
@[simp] theorem closeHandle_prng (s : State) (h : Option Nat) : (closeHandle s h).prng = s.prng := by cases h <;> rfl
@[simp] theorem closeHandle_tq (s : State) (h : Option Nat) : (closeHandle s h).tq = s.tq := by cases h <;> rfl
@[simp] theorem closeHandle_inFlight (s : State) (h : Option Nat) : (closeHandle s h).inFlight = s.inFlight := by cases h <;> rfl
@[simp] theorem closeHandle_storage (s : State) (h : Option Nat) : (closeHandle s h).storage = s.storage := by cases h <;> rfl
@[simp] theorem closeHandle_storeAnswer (s : State) (h : Option Nat) : (closeHandle s h).storeAnswer = s.storeAnswer := by cases h <;> rfl
theorem closeHandle_storeCalls (s : State) (h : Option Nat) :
    (closeHandle s h).storeCalls = s.storeCalls ++ (h.map StoreCall.close).toList := by
  cases h <;> simp [closeHandle]
@[simp] theorem closeHandle_garbage (s : State) (h : Option Nat) : (closeHandle s h).garbage = s.garbage := by cases h <;> rfl
@[simp] theorem closeHandle_inbox (s : State) (h : Option Nat) : (closeHandle s h).inbox = s.inbox := by cases h <;> rfl
@[simp] theorem closeHandle_result (s : State) (h : Option Nat) : (closeHandle s h).result = s.result := by cases h <;> rfl

/-! ### a StoreWrite (R13) -/

@[simp] theorem storeWrite_cfg (s : State) (h : Nat) (b : Bytes) : (storeWrite s h b).1.cfg = s.cfg := by
  unfold storeWrite; cases s.storeAnswer <;> rfl
@[simp] theorem storeWrite_activated (s : State) (h : Nat) (b : Bytes) : (storeWrite s h b).1.activated = s.activated := by
  unfold storeWrite; cases s.storeAnswer <;> rfl
@[simp] theorem storeWrite_slots (s : State) (h : Nat) (b : Bytes) : (storeWrite s h b).1.slots = s.slots := by
  unfold storeWrite; cases s.storeAnswer <;> rfl
@[simp] theorem storeWrite_orderCounter (s : State) (h : Nat) (b : Bytes) : (storeWrite s h b).1.orderCounter = s.orderCounter := by
  unfold storeWrite; cases s.storeAnswer <;> rfl
@[simp] theorem storeWrite_notif (s : State) (h : Nat) (b : Bytes) : (storeWrite s h b).1.notif = s.notif := by
  unfold storeWrite; cases s.storeAnswer <;> rfl
@[simp] theorem storeWrite_counter (s : State) (h : Nat) (b : Bytes) : (storeWrite s h b).1.counter = s.counter := by
  unfold storeWrite; cases s.storeAnswer <;> rfl
@[simp] theorem storeWrite_led (s : State) (h : Nat) (b : Bytes) : (storeWrite s h b).1.led = s.led := by
  unfold storeWrite; cases s.storeAnswer <;> rfl
@[simp] theorem storeWrite_prng (s : State) (h : Nat) (b : Bytes) : (storeWrite s h b).1.prng = s.prng := by
  unfold storeWrite; cases s.storeAnswer <;> rfl
@[simp] theorem storeWrite_tq (s : State) (h : Nat) (b : Bytes) : (storeWrite s h b).1.tq = s.tq := by
  unfold storeWrite; cases s.storeAnswer <;> rfl
@[simp] theorem storeWrite_inFlight (s : State) (h : Nat) (b : Bytes) : (storeWrite s h b).1.inFlight = s.inFlight := by
  unfold storeWrite; cases s.storeAnswer <;> rfl
theorem storeWrite_storage (s : State) (h : Nat) (b : Bytes) : (storeWrite s h b).1.storage =
    if s.storeAnswer then assocPut s.storage h b else assocErase s.storage h := by
  unfold storeWrite; cases s.storeAnswer <;> rfl
@[simp] theorem storeWrite_storeAnswer (s : State) (h : Nat) (b : Bytes) : (storeWrite s h b).1.storeAnswer = s.storeAnswer := by
  unfold storeWrite; cases s.storeAnswer <;> rfl
@[simp] theorem storeWrite_storeCalls (s : State) (h : Nat) (b : Bytes) :
    (storeWrite s h b).1.storeCalls = s.storeCalls ++ [.write h b s.storeAnswer] := by
  unfold storeWrite; cases s.storeAnswer <;> rfl
@[simp] theorem storeWrite_garbage (s : State) (h : Nat) (b : Bytes) : (storeWrite s h b).1.garbage = s.garbage := by
  unfold storeWrite; cases s.storeAnswer <;> rfl
@[simp] theorem storeWrite_inbox (s : State) (h : Nat) (b : Bytes) : (storeWrite s h b).1.inbox = s.inbox := by
  unfold storeWrite; cases s.storeAnswer <;> rfl
@[simp] theorem storeWrite_result (s : State) (h : Nat) (b : Bytes) : (storeWrite s h b).1.result = s.result := by
  unfold storeWrite; cases s.storeAnswer <;> rfl
/-- The answer is the draw supplied with the request (R345). -/
@[simp] theorem storeWrite_answer (s : State) (h : Nat) (b : Bytes) : (storeWrite s h b).2 = s.storeAnswer := by
  unfold storeWrite; cases hs : s.storeAnswer <;> simp

/-! ### one slot -/

/-- The slot just replaced. -/
theorem slotAt_setSlot_self {s : State} {i : Nat} {x : Slot} (h : i < s.slots.length) : (s.setSlot i x).slotAt i = x := by
  simp [State.slotAt, State.setSlot, List.getD_eq_getElem?_getD, h]

/-- Every other slot is as it was. -/
theorem slotAt_setSlot_ne {s : State} {i j : Nat} {x : Slot} (h : i ≠ j) : (s.setSlot i x).slotAt j = s.slotAt j := by
  simp [State.slotAt, State.setSlot, List.getD_eq_getElem?_getD, List.getElem?_set_ne h]

/-- A slot that exists is one of the list. -/
theorem slotAt_mem {s : State} {i : Nat} (h : i < s.slots.length) : s.slotAt i ∈ s.slots := by
  simp [State.slotAt, List.getD_eq_getElem?_getD, h]

/-- A slot of the updated list is the new one or an old one. -/
theorem mem_setSlot {s : State} {i : Nat} {x y : Slot} (h : y ∈ (s.setSlot i x).slots) : y = x ∨ y ∈ s.slots :=
  (List.mem_or_eq_of_mem_set h).symm

@[simp] theorem setSlot_length (s : State) (i : Nat) (x : Slot) : (s.setSlot i x).slots.length = s.slots.length := by
  simp [State.setSlot]

/-- Putting a slot back as it was changes nothing. -/
theorem setSlot_slotAt (s : State) (i : Nat) : s.setSlot i (s.slotAt i) = s := by
  have h : s.slots.set i (s.slots.getD i Slot.empty) = s.slots := by
    apply List.ext_getElem?
    intro j
    by_cases hj : i = j
    · subst hj
      by_cases hi : i < s.slots.length
      · simp [hi, List.getD_eq_getElem?_getD]
      · simp [hi]
    · simp [List.getElem?_set_ne hj]
  simp only [State.setSlot, State.slotAt, h]

/-- The second replacement of one slot wins. -/
theorem setSlot_setSlot (s : State) (i : Nat) (x y : Slot) : (s.setSlot i x).setSlot i y = s.setSlot i y := by
  simp [State.setSlot]

end Sys2Proof.Machine
end

