-- ==== Sys2Proof/Laws/Ops.lean ====
section
/-! SUPPORT. One lemma per shared operation that says once what it can do: what holds when it answers a state, and what it
answers. Proofs about an instruction cite these and never unfold the operation. -/

namespace Sys2Proof.Machine

/-! ## Byte strings -/

@[simp] theorem zeros_length (n : Nat) : (zeros n).length = n := by simp [zeros]

@[simp] theorem pad_length (b : Bytes) (n : Nat) : (pad b n).length = n := by simp [pad]

theorem pad_eq {b : Bytes} {n : Nat} (h : b.length ≤ n) : pad b n = b ++ zeros (n - b.length) := by
  simp only [pad, List.take_append, List.take_of_length_le h, zeros, List.take_replicate]
  congr 2
  omega

@[simp] theorem aResp_length (c : Params) (seq : Byte) (p : Bytes) : (aResp c seq p).length = c.reportLen := pad_length _ _

@[simp] theorem aNotif_length (c : Params) (role mark order : Byte) (k : NotifKind) :
    (aNotif c role mark order k).length = c.reportLen := pad_length _ _

@[simp] theorem bResp_length (c : Params) (head : Bytes) : (bResp c head).length = c.reportLen := pad_length _ _

@[simp] theorem toBe_length (n v : Nat) : (toBe n v).length = n := by
  induction n with
  | zero => rfl
  | succ n ih => simp [toBe, ih]

@[simp] theorem tobe16_length (v : U16) : (tobe16 v).length = 2 := toBe_length _ _
@[simp] theorem tobe32_length (v : U32) : (tobe32 v).length = 4 := toBe_length _ _
@[simp] theorem tobe64_length (v : U64) : (tobe64 v).length = 8 := toBe_length _ _

@[simp] theorem overwrite_length (b : Bytes) (off : Nat) (v : Bytes) : (overwrite b off v).length = b.length := by
  induction b generalizing off v with
  | nil => simp [overwrite]
  | cons x b ih => cases v <;> cases off <;> simp [overwrite, ih]

/-- What one byte of an overwritten string is (R201). -/
theorem getD_overwrite (b : Bytes) (off : Nat) (v : Bytes) (i : Nat) (h : i < b.length) :
    (overwrite b off v).getD i 0#8 =
      if off ≤ i ∧ i < off + v.length then v.getD (i - off) 0#8 else b.getD i 0#8 := by
  induction b generalizing off v i with
  | nil => simp at h
  | cons x b ih =>
    cases v with
    | nil =>
      rw [if_neg (by simp only [List.length_nil]; omega)]
      cases off <;> rfl
    | cons y v =>
      simp only [List.length_cons] at h
      cases off with
      | zero =>
        cases i with
        | zero => simp [overwrite]
        | succ i =>
          simp only [overwrite, List.getD_cons_succ, List.length_cons]
          rw [ih 0 v i (by omega)]
          by_cases h2 : i < v.length
          · simp [h2]
          · simp [h2]
      | succ off =>
        cases i with
        | zero => simp [overwrite]
        | succ i =>
          simp only [overwrite, List.getD_cons_succ, List.length_cons]
          rw [ih off (y :: v) i (by omega)]
          have h3 : i + 1 - (off + 1) = i - off := by omega
          by_cases h2 : off ≤ i ∧ i < off + (v.length + 1)
          · rw [if_pos (by simpa using h2), if_pos (by omega), h3]
          · rw [if_neg (by simpa using h2), if_neg (by omega)]

/-! ## Families and queues -/

/-- An operation of the instance's family runs. -/
theorem onFamily_eq {f : Family} {s : State} (h : s.cfg.family = f) (k : Out) : onFamily f s k = k := if_pos h

/-- An operation that answers a state is one of the instance's family. -/
theorem onFamily_next {f : Family} {s t : State} {k : Out} (h : onFamily f s k = .next t) :
    s.cfg.family = f ∧ k = .next t := by
  unfold onFamily at h
  split at h
  · exact ⟨‹_›, h⟩
  · simp at h

theorem hasRoom_add {c : Params} {n k : Nat} (h : hasRoom c n k = true) : hasRoom c (n + k) 0 = true := by
  revert h
  unfold hasRoom
  cases c.qDepth <;> simp

theorem hasRoom_mono {c : Params} {n m : Nat} (hm : m ≤ n) (h : hasRoom c n 0 = true) : hasRoom c m 0 = true := by
  revert h
  unfold hasRoom
  cases c.qDepth <;> simp
  omega

/-- A queue without a bound always has room (R344). -/
theorem hasRoom_unbounded {c : Params} (h : c.qDepth = none) (n k : Nat) : hasRoom c n k = true := by
  simp [hasRoom, h]

/-- A push to the transfer queue (R234). -/
theorem pushTq_ok {s t : State} {e : Bytes} :
    pushTq s e = .ok t ↔ hasRoom s.cfg s.tq.length 1 = true ∧ t = { s with tq := s.tq ++ [e] } := by
  unfold pushTq
  split
  · rename_i h
    rw [Except.ok.injEq]
    exact ⟨fun e => ⟨h, e.symm⟩, fun e => e.2.symm⟩
  · rename_i h
    exact ⟨fun e => (by cases e), fun e => absurd e.1 h⟩

/-- A push to the notifications (R344). -/
theorem pushNotif_ok {s t : State} {e : Bytes} :
    pushNotif s e = .ok t ↔ hasRoom s.cfg s.notif.length 1 = true ∧ t = { s with notif := s.notif ++ [e] } := by
  unfold pushNotif
  split
  · rename_i h
    rw [Except.ok.injEq]
    exact ⟨fun e => ⟨h, e.symm⟩, fun e => e.2.symm⟩
  · rename_i h
    exact ⟨fun e => (by cases e), fun e => absurd e.1 h⟩

/-- Two pushes to a status queue (R344). -/
theorem pushStatus_ok {s t : State} {i : Nat} {x y : StatusCode} :
    pushStatus s i x y = .ok t ↔ hasRoom s.cfg (s.slotAt i).squeue.length 2 = true ∧
      t = s.setSlot i { s.slotAt i with squeue := (s.slotAt i).squeue ++ [x, y] } := by
  unfold pushStatus
  split
  · rename_i h
    rw [Except.ok.injEq]
    exact ⟨fun e => ⟨h, e.symm⟩, fun e => e.2.symm⟩
  · rename_i h
    exact ⟨fun e => (by cases e), fun e => absurd e.1 h⟩

/-! ## Commands -/

/-- A Family A command that answers a state ran, found room for its reply and echoed its payload (R260). -/
theorem commandA_next {p : Bytes} {run : State → Except Fault (State × Bytes)} {s t : State}
    (h : commandA p run s = .next t) :
    s.cfg.family = .a ∧ ∃ s1 reply, run s = .ok (s1, reply) ∧ hasRoom s1.cfg s1.tq.length 1 = true ∧
      t = replied s1 p reply s.cfg.dAEcho := by
  obtain ⟨hf, h⟩ := onFamily_next h
  refine ⟨hf, ?_⟩
  split at h
  · simp [raise] at h
  · rename_i s1 reply hr
    refine ⟨s1, reply, hr, ?_⟩
    split at h
    · simp [raise] at h
    · rename_i s2 hp
      obtain ⟨hroom, rfl⟩ := pushTq_ok.1 hp
      simp only [Host.Outcome.next.injEq] at h
      exact ⟨hroom, h.symm⟩

/-- A Family A command whose operation succeeds and whose reply finds room answers (R260). -/
theorem commandA_eq {p : Bytes} {run : State → Except Fault (State × Bytes)} {s s1 : State} {reply : Bytes}
    (hf : s.cfg.family = .a) (hr : run s = .ok (s1, reply)) (hq : hasRoom s1.cfg s1.tq.length 1 = true) :
    commandA p run s = .next (replied s1 p reply s.cfg.dAEcho) := by
  simp only [commandA, onFamily_eq hf, hr, pushTq, hq, if_true]
  rfl

/-- A Family B command that answers a state ran, found room for its reply if it has one, and answered its payload
(R300). -/
theorem commandB_next {p : Bytes} {run : State → Except Fault (State × Option Bytes)} {s t : State}
    (h : commandB p run s = .next t) :
    s.cfg.family = .b ∧ ∃ s1,
      (run s = .ok (s1, none) ∧ t = answered s1 p s.cfg.dBCtrl) ∨
      ∃ reply, run s = .ok (s1, some reply) ∧ hasRoom s1.cfg s1.tq.length 1 = true ∧
        t = replied s1 p reply s.cfg.dBCtrl := by
  obtain ⟨hf, h⟩ := onFamily_next h
  refine ⟨hf, ?_⟩
  split at h
  · simp [raise] at h
  · rename_i s1 hr
    simp only [Host.Outcome.next.injEq] at h
    exact ⟨s1, .inl ⟨hr, h.symm⟩⟩
  · rename_i s1 reply hr
    refine ⟨s1, .inr ⟨reply, hr, ?_⟩⟩
    split at h
    · simp [raise] at h
    · rename_i s2 hp
      obtain ⟨hroom, rfl⟩ := pushTq_ok.1 hp
      simp only [Host.Outcome.next.injEq] at h
      exact ⟨hroom, h.symm⟩

/-- A Family B command that queues nothing answers (R300). -/
theorem commandB_eq_none {p : Bytes} {run : State → Except Fault (State × Option Bytes)} {s s1 : State}
    (hf : s.cfg.family = .b) (hr : run s = .ok (s1, none)) :
    commandB p run s = .next (answered s1 p s.cfg.dBCtrl) := by
  simp only [commandB, onFamily_eq hf, hr]
  rfl

/-- A Family B command whose operation succeeds and whose reply finds room answers (R300). -/
theorem commandB_eq_some {p : Bytes} {run : State → Except Fault (State × Option Bytes)} {s s1 : State} {reply : Bytes}
    (hf : s.cfg.family = .b) (hr : run s = .ok (s1, some reply)) (hq : hasRoom s1.cfg s1.tq.length 1 = true) :
    commandB p run s = .next (replied s1 p reply s.cfg.dBCtrl) := by
  simp only [commandB, onFamily_eq hf, hr, pushTq, hq, if_true]
  rfl

/-! ## Operand forms -/

/-- A block number that Family A addresses: 0 to 4, at an offset inside the buffer (R183, R62). -/
theorem offA_ok {c : Params} {n : Byte} {off : Nat} (h : offA c n = .ok off) :
    n.toNat ≤ 4 ∧ off = blockOffsetA n ∧ off + 16 ≤ c.bufLenA := by
  have hn : n = 0#8 ↔ n.toNat = 0 := by rw [BitVec.toNat_eq]; rfl
  unfold offA at h
  simp only [blockOffsetA, hn]
  by_cases h0 : n.toNat = 0
  · simp only [h0, if_true] at h ⊢
    split at h
    · cases h
    · rw [Except.ok.injEq] at h
      omega
  · simp only [h0, if_false] at h ⊢
    split at h
    · cases h
    · rw [Except.ok.injEq] at h
      omega

/-- A block number that Family B addresses: 0 to 63, at an offset inside the buffer (R184, R62). -/
theorem offB_ok {c : Params} {n : Byte} {off : Nat} (h : offB c n = .ok off) :
    n.toNat < 64 ∧ off = 16 * n.toNat ∧ off + 16 ≤ c.bufLenB := by
  unfold offB at h
  split at h
  · simp at h
  · simp only [Except.ok.injEq] at h
    omega

/-- A Family B slot number that names a slot (R195). -/
theorem slotB_ok {s : State} {i j : Nat} (h : slotB s i = .ok j) : j = i ∧ i < s.cfg.nSlotsB := by
  unfold slotB at h
  split at h
  · simp only [Except.ok.injEq] at h
    exact ⟨h.symm, ‹_›⟩
  · simp at h

/-- A slot found by order-added is present and has that rank (R195). -/
theorem orderSlot_some {x i j : Nat} {l : List Slot} (h : orderSlot x i l = some j) :
    i ≤ j ∧ ∃ sl, l[j - i]? = some sl ∧ sl.present = true ∧ sl.order = some x := by
  induction l generalizing i with
  | nil => simp [orderSlot] at h
  | cons sl l ih =>
    simp only [orderSlot] at h
    split at h
    · rename_i hc
      simp only [Option.some.injEq] at h
      subst h
      exact ⟨Nat.le_refl _, sl, by simp, hc⟩
    · obtain ⟨hle, sl', h1, h2⟩ := ih h
      refine ⟨by omega, sl', ?_, h2⟩
      rw [show j - i = (j - (i + 1)) + 1 by omega]
      simpa using h1

/-- No slot is found by order-added only where no present slot has that rank (R195). -/
theorem orderSlot_none {x i : Nat} {l : List Slot} (h : orderSlot x i l = none) :
    ∀ sl ∈ l, ¬ (sl.present = true ∧ sl.order = some x) := by
  induction l generalizing i with
  | nil => simp
  | cons sl l ih =>
    simp only [orderSlot] at h
    split at h
    · simp at h
    · rename_i hc
      intro y hy
      rcases List.mem_cons.1 hy with rfl | hy
      · exact hc
      · exact ih h y hy

/-- A selector resolves to a slot that exists (R195). -/
theorem resolveA_some {s : State} {x : Byte} {i : Nat} (h : resolveA s x = .ok (some i)) :
    i < s.cfg.nSlotsA ∨ i < s.slots.length := by
  unfold resolveA at h
  split at h
  · split at h
    · simp only [Except.ok.injEq, Option.some.injEq] at h
      exact .inl (h ▸ ‹_›)
    · simp at h
  · simp only [Except.ok.injEq] at h
    obtain ⟨_, sl, h1, _⟩ := orderSlot_some h
    exact .inr (by simpa using (List.getElem?_eq_some_iff.1 h1).1)

/-! ## Writing a block -/

/-- The four ways a write-and-persist ends (R192): an absent slot is written and nothing persisted; a present slot is
written and persisted; a failed StoreWrite leaves the buffer as it was; a present slot without a handle is left alone
(log 16). -/
theorem persisted_cases (s : State) (i off : Nat) (v : Bytes) :
    ((s.slotAt i).present = false ∧ persisted s i off v = (s.memWrite i off v, false)) ∨
    (∃ h, (s.slotAt i).present = true ∧ (s.slotAt i).handle = some h ∧ s.storeAnswer = true ∧
      persisted s i off v =
        ((storeWrite (s.memWrite i off v) h ((s.memWrite i off v).memRead i 0 s.cfg.bufLen)).1, true)) ∨
    (∃ h, (s.slotAt i).present = true ∧ (s.slotAt i).handle = some h ∧ s.storeAnswer = false ∧
      persisted s i off v =
        ((storeWrite (s.memWrite i off v) h ((s.memWrite i off v).memRead i 0 s.cfg.bufLen)).1.setSlot i (s.slotAt i),
          false)) ∨
    ((s.slotAt i).present = true ∧ (s.slotAt i).handle = none ∧ persisted s i off v = (s, false)) := by
  unfold persisted
  cases hp : (s.slotAt i).present
  · exact .inl ⟨rfl, rfl⟩
  · refine .inr ?_
    cases hh : (s.slotAt i).handle with
    | none => exact .inr (.inr ⟨rfl, rfl, rfl⟩)
    | some h =>
      cases ha : s.storeAnswer
      · refine .inr (.inl ⟨h, rfl, rfl, rfl, ?_⟩)
        have : (s.memWrite i off v).storeAnswer = false := ha
        simp only [storeWrite, this, if_true]
        rfl
      · refine .inl ⟨h, rfl, rfl, rfl, ?_⟩
        have : (s.memWrite i off v).storeAnswer = true := ha
        simp only [storeWrite, this, if_true]

/-- A StoreWrite changes the storage record and the storage calls only (R13). -/
theorem storeWrite_eq (s : State) (h : Nat) (b : Bytes) :
    (storeWrite s h b).1 = { s with
      storage := (storeWrite s h b).1.storage
      storeCalls := s.storeCalls ++ [.write h b s.storeAnswer] } := by
  unfold storeWrite
  by_cases ha : s.storeAnswer = true
  · simp only [if_pos ha]; rw [ha]
  · simp only [if_neg ha]; rw [Bool.not_eq_true] at ha; rw [ha]

/-- A StoreRead records its answer, changes nothing else, and reads what is known of the blob where the answer is ok (R13). -/
theorem storeRead_eq (s : State) (h : Nat) :
    (storeRead s h).1 = { s with storeCalls := s.storeCalls ++ [.read h s.storeAnswer] } ∧
      (s.storeAnswer = true → (storeRead s h).2 = some (assocGet s.storage h)) ∧
      (s.storeAnswer = false → (storeRead s h).2 = none) :=
  ⟨rfl, fun ha => if_pos ha, fun ha => if_neg (by simp [ha])⟩

/-- The one slot a write-and-persist may touch is replaced by itself with new data, or by itself; nothing outside the slots
and the storage record changes (R192). -/
theorem persisted_frame (s : State) (i off : Nat) (v : Bytes) :
    ∃ d st sc, (persisted s i off v).1 =
        { s.setSlot i { s.slotAt i with data := d } with storage := st, storeCalls := sc } ∧
      (d = (s.slotAt i).data ∨ d = (s.slotAt i).data.write off v) ∧
      (st = s.storage ∨ ∃ h b, st = assocPut s.storage h b ∨ st = assocErase s.storage h) := by
  have hself : s.setSlot i { s.slotAt i with data := (s.slotAt i).data } = s := setSlot_slotAt s i
  have hst : ∀ h b, (storeWrite (s.memWrite i off v) h b).1.storage = s.storage ∨
      ∃ h' b', (storeWrite (s.memWrite i off v) h b).1.storage = assocPut s.storage h' b' ∨
        (storeWrite (s.memWrite i off v) h b).1.storage = assocErase s.storage h' := by
    intro h b
    refine .inr ⟨h, b, ?_⟩
    rw [storeWrite_storage]
    split
    · exact .inl rfl
    · exact .inr rfl
  rcases persisted_cases s i off v with ⟨_, h⟩ | ⟨hd, _, _, ha, h⟩ | ⟨hd, _, _, ha, h⟩ | ⟨_, _, h⟩
  · exact ⟨(s.slotAt i).data.write off v, s.storage, s.storeCalls, by rw [h]; rfl, .inr rfl, .inl rfl⟩
  · rw [h]
    exact ⟨_, _, _, storeWrite_eq _ _ _, .inr rfl, hst hd _⟩
  · rw [h]
    refine ⟨(s.slotAt i).data, _,
      s.storeCalls ++ [.write hd ((s.memWrite i off v).memRead i 0 s.cfg.bufLen) s.storeAnswer], ?_, .inl rfl,
      hst hd ((s.memWrite i off v).memRead i 0 s.cfg.bufLen)⟩
    · rw [storeWrite_eq]
      simp only [State.memWrite, State.setSlot, List.set_set]
  · exact ⟨(s.slotAt i).data, s.storage, s.storeCalls, by rw [h, hself], .inl rfl, .inl rfl⟩

/-- A Family A block write that answers addressed a block and wrote through R192, or found no slot (R191). -/
theorem writeBlockOpA_ok {s t : State} {slot : Option Nat} {n seq : Byte} {v r : Bytes}
    (h : writeBlockOpA s slot n v seq = .ok (t, r)) :
    ∃ off, offA s.cfg n = .ok off ∧
      ((slot = none ∧ t = s ∧ r = aResp s.cfg seq [0x01#8]) ∨
        ∃ i, slot = some i ∧ t = (persisted s i off v).1 ∧
          r = aResp s.cfg seq [if (persisted s i off v).2 then 0x00#8 else 0x01#8]) := by
  unfold writeBlockOpA at h
  split at h
  · simp at h
  · rename_i off ho
    refine ⟨off, ho, ?_⟩
    split at h
    · simp only [Except.ok.injEq, Prod.mk.injEq] at h
      exact .inl ⟨rfl, h.1.symm, h.2.symm⟩
    · rename_i i
      simp only [Except.ok.injEq, Prod.mk.injEq] at h
      exact .inr ⟨i, rfl, h.1.symm, h.2.symm⟩

/-- A resolved and answered Family A block write (R278). -/
theorem writeBlockBySelector_ok {s t : State} {sel n seq : Byte} {v r : Bytes}
    (h : writeBlockBySelector s sel n v seq = .ok (t, r)) :
    ∃ slot, resolveA s sel = .ok slot ∧ writeBlockOpA s slot n v seq = .ok (t, r) := by
  unfold writeBlockBySelector at h
  split at h
  · simp at h
  · exact ⟨_, ‹_›, h⟩

/-- A Family B block write that answers addressed a block and wrote through R192 (R193). -/
theorem writeBlockOpB_ok {s t : State} {i : Nat} {n : Byte} {v r : Bytes} (h : writeBlockOpB s i n v = .ok (t, r)) :
    ∃ off, offB s.cfg n = .ok off ∧ t = (persisted s i off v).1 ∧
      r = bResp s.cfg [0x57#8, if (persisted s i off v).2 then 0x10#8 ||| BitVec.ofNat 8 i else 0x01#8, n] := by
  unfold writeBlockOpB at h
  split at h
  · simp at h
  · simp only [Except.ok.injEq, Prod.mk.injEq] at h
    exact ⟨_, ‹_›, h.1.symm, h.2.symm⟩

/-- A resolved and answered 'W' (R311). -/
theorem writeBlockBySlotByte_ok {s t : State} {sb blk : Byte} {v : Bytes} {o : Option Bytes}
    (h : writeBlockBySlotByte s sb blk v = .ok (t, o)) :
    ∃ i r, resolveB s sb = .ok i ∧ writeBlockOpB s i blk v = .ok (t, r) ∧ o = some r := by
  unfold writeBlockBySlotByte at h
  split at h
  · simp at h
  · split at h
    · simp at h
    · simp only [Except.ok.injEq, Prod.mk.injEq] at h
      obtain ⟨rfl, rfl⟩ := h
      exact ⟨_, _, ‹_›, ‹_›, rfl⟩

/-- A resolved and answered 'Q' changes nothing (R307). -/
theorem queryBlockBySlotByte_ok {s t : State} {sb blk : Byte} {o : Option Bytes}
    (h : queryBlockBySlotByte s sb blk = .ok (t, o)) :
    t = s ∧ ∃ i r, resolveB s sb = .ok i ∧ queryBlockOpB s i blk = .ok r ∧ o = some r := by
  unfold queryBlockBySlotByte at h
  split at h
  · simp at h
  · split at h
    · simp at h
    · simp only [Except.ok.injEq, Prod.mk.injEq] at h
      obtain ⟨rfl, rfl⟩ := h
      exact ⟨rfl, _, _, ‹_›, ‹_›, rfl⟩

/-- A read-only command leaves the state as it was. -/
theorem readOnly_ok {s t : State} {e : Except Fault Bytes} {r : Bytes} (h : readOnly s e = .ok (t, r)) :
    t = s ∧ e = .ok r := by
  cases e with
  | error f => simp [readOnly] at h
  | ok b =>
    simp only [readOnly, Except.ok.injEq, Prod.mk.injEq] at h
    exact ⟨h.1.symm, by rw [h.2]⟩

/-- A query's response fills its buffer (R189). -/
theorem queryBlockOpA_length {s : State} {slot : Option Nat} {n seq : Byte} {r : Bytes}
    (h : queryBlockOpA s slot n seq = .ok r) : r.length = s.cfg.reportLen := by
  unfold queryBlockOpA at h
  split at h
  · simp at h
  · split at h
    · simp only [Except.ok.injEq] at h; simp [← h]
    · split at h <;> (simp only [Except.ok.injEq] at h; simp [← h])

/-- A resolved and answered query is one of a slot (R277). -/
theorem queryBlockBySelector_ok {s : State} {sel n seq : Byte} {r : Bytes}
    (h : queryBlockBySelector s sel n seq = .ok r) :
    ∃ slot, resolveA s sel = .ok slot ∧ queryBlockOpA s slot n seq = .ok r := by
  unfold queryBlockBySelector at h
  split at h
  · simp at h
  · exact ⟨_, ‹_›, h⟩

/-- A query's response fills its buffer (R190). -/
theorem queryBlockOpB_length {s : State} {i : Nat} {n : Byte} {r : Bytes} (h : queryBlockOpB s i n = .ok r) :
    r.length = s.cfg.reportLen := by
  unfold queryBlockOpB at h
  split at h
  · simp at h
  · split at h <;> (simp only [Except.ok.injEq] at h; simp [← h])

/-- A resolved and answered identifier (R279). -/
theorem figureIdentifierBySelector_ok {s : State} {sel seq : Byte} {r : Bytes}
    (h : figureIdentifierBySelector s sel seq = .ok r) :
    ∃ slot, resolveA s sel = .ok slot ∧ r = getFigureIdentifierOp s slot seq := by
  unfold figureIdentifierBySelector at h
  split at h
  · simp at h
  · simp only [Except.ok.injEq] at h
    exact ⟨_, ‹_›, h.symm⟩

@[simp] theorem getFigureIdentifierOp_length (s : State) (slot : Option Nat) (seq : Byte) :
    (getFigureIdentifierOp s slot seq).length = s.cfg.reportLen := by
  unfold getFigureIdentifierOp
  split
  · simp
  · split <;> simp

/-! ## The crypto engine -/

/-- An exchange of two blocks undoes itself. -/
theorem exchangeBlocks_exchangeBlocks (p : Vector Byte 16 × Vector Byte 16) (b : Bytes) :
    exchangeBlocks p (exchangeBlocks p b) = b := by
  unfold exchangeBlocks
  by_cases h1 : b = p.1.toList
  · simp only [h1, if_true]
    split <;> simp_all
  · by_cases h2 : b = p.2.toList
    · simp [h2]
    · simp [h1, h2]

/-- A list of exchanges undone in the reverse order gives the block back (log 19). -/
theorem permuteBlock_reverse (ps : List (Vector Byte 16 × Vector Byte 16)) (b : Bytes) :
    permuteBlock ps.reverse (permuteBlock ps b) = b := by
  induction ps generalizing b with
  | nil => rfl
  | cons p ps ih =>
    have := ih (exchangeBlocks p b)
    simp only [permuteBlock, List.reverse_cons, List.foldl_append, List.foldl_cons, List.foldl_nil] at this ⊢
    rw [this, exchangeBlocks_exchangeBlocks]

/-- A permutation of blocks gives blocks. -/
theorem permuteBlock_length (ps : List (Vector Byte 16 × Vector Byte 16)) (b : Bytes) (h : b.length = 16) :
    (permuteBlock ps b).length = 16 := by
  induction ps generalizing b with
  | nil => exact h
  | cons p ps ih =>
    refine ih (exchangeBlocks p b) ?_
    unfold exchangeBlocks
    split
    · simp
    · split <;> simp [h]

/-! ## The scramble engine -/

/-- A drawn word (R161). -/
theorem getNextOp_ok {s t : State} {r : U32} :
    getNextOp s = .ok (t, r) ↔
      s.prng.seeded = true ∧ t = { s with prng := (prngStep s.prng).1 } ∧ r = (prngStep s.prng).2 := by
  unfold getNextOp
  split
  · rename_i hs
    simp only [Except.ok.injEq, Prod.mk.injEq, hs, true_and]
    exact ⟨fun h => ⟨h.1.symm, h.2.symm⟩, fun h => ⟨h.1.symm, h.2.symm⟩⟩
  · rename_i hs
    simp [hs]

/-- A drawn and scrambled word (R268). -/
theorem nextRandomReply_ok {s t : State} {seq : Byte} {b : Bytes} (h : nextRandomReply seq s = .ok (t, b)) :
    s.prng.seeded = true ∧ t = { s with prng := (prngStep s.prng).1 } ∧
      b = aResp s.cfg seq (tobe64 (scrambleOp s.cfg (prngStep s.prng).2 s.garbage)) := by
  unfold nextRandomReply at h
  split at h
  · simp at h
  · rename_i s1 r hg
    obtain ⟨hs, rfl, rfl⟩ := getNextOp_ok.1 hg
    simp only [Except.ok.injEq, Prod.mk.injEq] at h
    exact ⟨hs, h.1.symm, h.2.symm⟩

@[simp] theorem prngStep_seeded (p : Prng) : (prngStep p).1.seeded = p.seeded := rfl

@[simp] theorem prngDiscard_seeded (n : Nat) (p : Prng) : (prngDiscard n p).seeded = p.seeded := by
  induction n generalizing p with
  | zero => rfl
  | succ n ih => rw [prngDiscard, ih, prngStep_seeded]

/-! ## Loading and removing -/

/-- Closing a replaced handle changes the storage calls only (R196). -/
theorem closeReplaced_eq (s : State) (i : Nat) :
    closeReplaced s i = { s with storeCalls := s.storeCalls ++
      (if (s.slotAt i).present then ((s.slotAt i).handle.map StoreCall.close).toList else []) } := by
  unfold closeReplaced
  split
  · cases hh : (s.slotAt i).handle <;> simp [closeHandle]
  · simp

@[simp] theorem closeHandle_slotAt (s : State) (h : Option Nat) (j : Nat) : (closeHandle s h).slotAt j = s.slotAt j := by
  simp [State.slotAt]

@[simp] theorem closeReplaced_slotAt (s : State) (i j : Nat) : (closeReplaced s i).slotAt j = s.slotAt j := by
  rw [closeReplaced_eq]; rfl

/-- What assigning an order-added can do (R196): nothing to a slot that has one; else the counter's value, and the counter
moves on. -/
theorem assignOrder_ok {s t : State} {i : Nat} (h : assignOrder s i = .ok t) :
    (∃ o, (s.slotAt i).order = some o ∧ t = s) ∨
    ((s.slotAt i).order = none ∧ s.orderCounter ≤ s.cfg.orderMax ∧
      t = { s.setSlot i { s.slotAt i with order := some s.orderCounter } with orderCounter := s.orderCounter + 1 }) := by
  unfold assignOrder at h
  split at h
  · rename_i o ho
    simp only [Except.ok.injEq] at h
    exact .inl ⟨o, ho, h.symm⟩
  · rename_i ho
    split at h
    · simp at h
    · simp only [Except.ok.injEq] at h
      exact .inr ⟨ho, by omega, h.symm⟩

/-- The reset policy changes the counter only, and only where every slot is empty (R198). -/
theorem resetOrderWhenEmpty_eq (s : State) :
    resetOrderWhenEmpty s = { s with orderCounter :=
      if s.cfg.orderResetWhenEmpty = true ∧ s.allAbsent = true then s.cfg.orderInitial else s.orderCounter } := by
  unfold resetOrderWhenEmpty
  by_cases h : s.cfg.orderResetWhenEmpty = true ∧ s.allAbsent = true
  · simp [h]
  · rw [if_neg h, if_neg (by simpa using h)]

/-- What a Family A load does (R196). -/
theorem loadOpA_ok {s t : State} {i : Nat} {blob : Bytes} {h : Nat} (hl : loadOpA s i blob h = .ok t) :
    ∃ s3, assignOrder ((closeReplaced s i).setSlot i (loadedSlot (s.slotAt i) blob h)) i = .ok s3 ∧
      hasRoom s3.cfg s3.notif.length 1 = true ∧
      t = { s3 with notif := s3.notif ++ [slotNotif s3.cfg i (s3.slotAt i).order .added] } := by
  unfold loadOpA at hl
  simp only [closeReplaced_slotAt] at hl
  split at hl
  · simp at hl
  · rename_i s3 h3
    obtain ⟨hroom, rfl⟩ := pushNotif_ok.1 hl
    exact ⟨s3, h3, hroom, rfl⟩

/-- What a Family B load does (R197). -/
theorem loadOpB_ok {s t : State} {i : Nat} {blob : Bytes} {h : Nat} (hi : i < s.slots.length)
    (hl : loadOpB s i blob h = .ok t) :
    hasRoom s.cfg (s.slotAt i).squeue.length 2 = true ∧
      t = (closeReplaced s i).setSlot i
        { loadedSlot (s.slotAt i) blob h with squeue := (s.slotAt i).squeue ++ [.added, .present] } := by
  unfold loadOpB at hl
  simp only [closeReplaced_slotAt] at hl
  have hi' : i < (closeReplaced s i).slots.length := by rw [closeReplaced_eq]; exact hi
  obtain ⟨hroom, rfl⟩ := pushStatus_ok.1 hl
  rw [slotAt_setSlot_self hi', setSlot_setSlot]
  rw [slotAt_setSlot_self hi', closeReplaced_eq] at hroom
  exact ⟨hroom, rfl⟩

/-- What a Family A removal does (R199). -/
theorem removeOpA_ok {s t : State} {i : Nat} (h : removeOpA s i = .ok t) :
    hasRoom s.cfg s.notif.length 1 = true ∧
      t = resetOrderWhenEmpty ((closeHandle
        { s with notif := s.notif ++ [slotNotif s.cfg i (s.slotAt i).order .removed] } (s.slotAt i).handle).setSlot i
          { s.slotAt i with present := false, handle := none, order := none }) := by
  unfold removeOpA at h
  split at h
  · simp at h
  · rename_i s1 h1
    obtain ⟨hroom, rfl⟩ := pushNotif_ok.1 h1
    simp only [Except.ok.injEq, closeHandle_slotAt] at h
    exact ⟨hroom, h.symm⟩

/-- What a Family B removal does (R200). -/
theorem removeOpB_ok {s t : State} {i : Nat} (hi : i < s.slots.length) (h : removeOpB s i = .ok t) :
    hasRoom s.cfg (s.slotAt i).squeue.length 2 = true ∧
      t = (closeHandle s (s.slotAt i).handle).setSlot i
        { s.slotAt i with present := false, handle := none, squeue := (s.slotAt i).squeue ++ [.removed, .absent] } := by
  unfold removeOpB at h
  simp only [closeHandle_slotAt] at h
  have hi' : i < (closeHandle s (s.slotAt i).handle).slots.length := by simpa using hi
  obtain ⟨hroom, rfl⟩ := pushStatus_ok.1 h
  rw [slotAt_setSlot_self hi', setSlot_setSlot]
  rw [slotAt_setSlot_self hi'] at hroom
  exact ⟨by simpa using hroom, rfl⟩

/-- A CreateFigure changes the storage record, the storage calls and the result only (R201). -/
theorem createFigureOp_frame (s : State) (h : Nat) (id : U16) :
    ∃ st sc r, createFigureOp s h id = { s with storage := st, storeCalls := sc, result := r } ∧
      (st = s.storage ∨ ∃ b, st = assocPut s.storage h b ∨ st = assocErase s.storage h) := by
  unfold createFigureOp
  split
  · exact ⟨s.storage, s.storeCalls, .failure, rfl, .inl rfl⟩
  · rename_i e _
    unfold storeWrite
    cases s.storeAnswer
    · exact ⟨_, _, _, rfl, .inr ⟨[], .inr rfl⟩⟩
    · exact ⟨_, _, _, rfl, .inr ⟨figureBlob s.cfg e, .inl rfl⟩⟩

/-! ## Polls -/

/-- The three ways a Family A poll ends (R282). -/
theorem pollOpA_cases (s : State) :
    (∃ e rest, s.tq = e :: rest ∧ pollOpA s = State.respond { s with tq := rest } e s.cfg.dAReply) ∨
    (s.tq = [] ∧ ∃ e rest, s.notif = e :: rest ∧
      pollOpA s = State.respond { s with notif := rest } e s.cfg.dAReply) ∨
    (s.tq = [] ∧ s.notif = [] ∧ pollOpA s = idlePollOp s) := by
  unfold pollOpA
  cases ht : s.tq with
  | cons e rest => exact .inl ⟨e, rest, rfl, rfl⟩
  | nil =>
    cases hn : s.notif with
    | cons e rest => exact .inr (.inl ⟨rfl, e, rest, rfl, rfl⟩)
    | nil => exact .inr (.inr ⟨rfl, rfl, rfl⟩)

/-- The three ways a Family B poll ends (R320). -/
theorem pollOpB_cases (p : Bytes) (s : State) :
    (32 < p.length ∧ pollOpB p s = s.respond p s.cfg.dBAudio) ∨
    (p.length ≤ 32 ∧ ∃ e rest, s.tq = e :: rest ∧
      pollOpB p s = State.respond { s with tq := rest } e s.cfg.dBQueued) ∨
    (p.length ≤ 32 ∧ s.tq = [] ∧ pollOpB p s = statusPollOp s) := by
  unfold pollOpB
  split
  · exact .inl ⟨‹_›, rfl⟩
  · refine .inr ?_
    cases ht : s.tq with
    | cons e rest => exact .inl ⟨by omega, e, rest, rfl, rfl⟩
    | nil => exact .inr ⟨by omega, rfl, rfl⟩

/-- A poll handler that answers was selected (log 4). -/
theorem whenSelected_next {b : Bool} {s t : State} (h : whenSelected b s = .next t) : b = true ∧ t = s := by
  unfold whenSelected at h
  split at h
  · simp only [Host.Outcome.next.injEq] at h
    exact ⟨‹_›, h.symm⟩
  · simp at h

@[simp] theorem advanceSlot_data (x : Slot) : (advanceSlot x).data = x.data := by unfold advanceSlot; split <;> rfl
@[simp] theorem advanceSlot_present (x : Slot) : (advanceSlot x).present = x.present := by unfold advanceSlot; split <;> rfl
@[simp] theorem advanceSlot_handle (x : Slot) : (advanceSlot x).handle = x.handle := by unfold advanceSlot; split <;> rfl
@[simp] theorem advanceSlot_order (x : Slot) : (advanceSlot x).order = x.order := by unfold advanceSlot; split <;> rfl

end Sys2Proof.Machine
end

