-- ==== Sys2Proof/Laws/PerInstr.lean ====
section
/-! SUPPORT. Facts about each instruction as syntax, one lemma per constructor. `RequestHead`: the encoded form enters at the
row's place and carries the fixed bytes of its row in spec/opcode_table.json (30_encoding.md R90, R96, R101). -/

namespace Sys2Proof.Laws

/-- Where a row's requests enter, and the bytes the row fixes, with their positions. -/
def rowHead : Instr → Entry × List (Nat × Byte)
  | .aActivate _ _ => (.dispatcher, [(0, 0xFF#8), (2, 0x80#8)])
  | .aSeed _ _ _ => (.dispatcher, [(0, 0xFF#8), (2, 0x81#8)])
  | .aNextRandom _ _ => (.dispatcher, [(0, 0xFF#8), (2, 0x83#8)])
  | .aBlank90 _ _ => (.dispatcher, [(0, 0xFF#8), (2, 0x90#8)])
  | .aBlank91 _ _ => (.dispatcher, [(0, 0xFF#8), (2, 0x91#8)])
  | .aBlank92 _ _ => (.dispatcher, [(0, 0xFF#8), (2, 0x92#8)])
  | .aBlank93 _ _ => (.dispatcher, [(0, 0xFF#8), (2, 0x93#8)])
  | .aBlank94 _ _ => (.dispatcher, [(0, 0xFF#8), (2, 0x94#8)])
  | .aBlank95 _ _ => (.dispatcher, [(0, 0xFF#8), (2, 0x95#8)])
  | .aBlank96 _ _ => (.dispatcher, [(0, 0xFF#8), (2, 0x96#8)])
  | .aPresentFigures _ _ => (.dispatcher, [(0, 0xFF#8), (2, 0xA1#8)])
  | .aQueryBlock _ _ _ _ => (.dispatcher, [(0, 0xFF#8), (2, 0xA2#8)])
  | .aWriteBlock _ _ _ _ _ => (.dispatcher, [(0, 0xFF#8), (2, 0xA3#8)])
  | .aFigureId _ _ _ => (.dispatcher, [(0, 0xFF#8), (2, 0xB4#8)])
  | .aBlankB5 _ _ => (.dispatcher, [(0, 0xFF#8), (2, 0xB5#8)])
  | .bActivate _ _ => (.dispatcher, [(0, 0x41#8)])
  | .bLedC _ _ _ _ => (.dispatcher, [(0, 0x43#8)])
  | .bLedJ _ _ _ => (.dispatcher, [(0, 0x4A#8)])
  | .bLedL _ _ _ _ _ => (.dispatcher, [(0, 0x4C#8)])
  | .bQueryBlock _ _ _ => (.dispatcher, [(0, 0x51#8)])
  | .bReady _ _ => (.dispatcher, [(0, 0x52#8)])
  | .bStatus _ => (.dispatcher, [(0, 0x53#8)])
  | .bVersion _ _ _ _ => (.dispatcher, [(0, 0x56#8)])
  | .bWriteBlock _ _ _ _ => (.dispatcher, [(0, 0x57#8)])
  | .aPoll _ => (.pollA, [(0, 0x41#8)])
  | .aIdlePoll _ => (.idlePollA, [(0, 0x41#8)])
  | .bPoll _ => (.pollB, [(0, 0x41#8)])
  | .bAudioEcho _ => (.audioEchoB, [(0, 0x41#8)])
  | .bStatusFrame _ => (.statusFrameB, [(0, 0x41#8)])
  | .bQueuedReply _ => (.queuedReplyB, [(0, 0x41#8)])
  | .deriveKey _ => (.unit, [(0, 0x01#8)])
  | .encryptBlock _ _ => (.unit, [(0, 0x02#8)])
  | .decryptBlock _ _ => (.unit, [(0, 0x03#8)])
  | .checksum _ => (.unit, [(0, 0x04#8)])
  | .crc32 _ => (.unit, [(0, 0x05#8)])
  | .generateSeed _ => (.unit, [(0, 0x10#8)])
  | .getNext => (.unit, [(0, 0x11#8)])
  | .scramble _ _ => (.unit, [(0, 0x12#8)])
  | .descramble _ => (.unit, [(0, 0x13#8)])
  | .findByNumericId _ => (.unit, [(0, 0x20#8)])
  | .findByName _ => (.unit, [(0, 0x21#8)])
  | .allEntries => (.unit, [(0, 0x22#8)])
  | .isActivated => (.unit, [(0, 0x23#8)])
  | .activate => (.unit, [(0, 0x24#8)])
  | .deactivate => (.unit, [(0, 0x25#8)])
  | .getPresentFigures _ => (.unit, [(0, 0x26#8)])
  | .queryBlockA _ _ _ => (.unit, [(0, 0x27#8)])
  | .queryBlockB _ _ => (.unit, [(0, 0x27#8)])
  | .writeBlockA _ _ _ _ => (.unit, [(0, 0x28#8)])
  | .writeBlockB _ _ _ => (.unit, [(0, 0x28#8)])
  | .getFigureIdentifier _ _ => (.unit, [(0, 0x29#8)])
  | .loadFigureA _ _ _ => (.management, [(0, 0x30#8)])
  | .loadFigureB _ _ _ => (.management, [(0, 0x30#8)])
  | .removeFigureA _ => (.management, [(0, 0x31#8)])
  | .removeFigureB _ => (.management, [(0, 0x31#8)])
  | .createFigure _ _ => (.management, [(0, 0x32#8)])
  | .createFigureB _ _ => (.management, [(0, 0x32#8)])
  | .controlTransfer _ => (.host, [(0, 0x40#8)])
  | .interruptPoll _ => (.host, [(0, 0x41#8)])
  | .cancelTransfer => (.host, [(0, 0x42#8)])
  | .bulkTransfer _ => (.host, [(0, 0x43#8)])
  | .isochronousTransfer _ => (.host, [(0, 0x44#8)])

/-- The bytes carry each fixed byte at its position. -/
def hasBytes (bs : Bytes) : List (Nat × Byte) → Prop
  | [] => True
  | (i, b) :: cs => bs[i]? = some b ∧ hasBytes bs cs

/-- The encoded form of the instruction starts as its row says. -/
def RequestHead.Statement (i : Instr) : Prop :=
  (encode i).entry = (rowHead i).1 ∧ hasBytes (encode i).bytes (rowHead i).2

theorem RequestHead.aActivate (seq : Byte) (t : FrameTail) : RequestHead.Statement (.aActivate seq t) := ⟨rfl, rfl, rfl, trivial⟩
theorem RequestHead.aSeed (seq : Byte) (x : U64) (t : FrameTail) : RequestHead.Statement (.aSeed seq x t) := ⟨rfl, rfl, rfl, trivial⟩
theorem RequestHead.aNextRandom (seq : Byte) (t : FrameTail) : RequestHead.Statement (.aNextRandom seq t) := ⟨rfl, rfl, rfl, trivial⟩
theorem RequestHead.aBlank90 (seq : Byte) (t : FrameTail) : RequestHead.Statement (.aBlank90 seq t) := ⟨rfl, rfl, rfl, trivial⟩
theorem RequestHead.aBlank91 (seq : Byte) (t : FrameTail) : RequestHead.Statement (.aBlank91 seq t) := ⟨rfl, rfl, rfl, trivial⟩
theorem RequestHead.aBlank92 (seq : Byte) (t : FrameTail) : RequestHead.Statement (.aBlank92 seq t) := ⟨rfl, rfl, rfl, trivial⟩
theorem RequestHead.aBlank93 (seq : Byte) (t : FrameTail) : RequestHead.Statement (.aBlank93 seq t) := ⟨rfl, rfl, rfl, trivial⟩
theorem RequestHead.aBlank94 (seq : Byte) (t : FrameTail) : RequestHead.Statement (.aBlank94 seq t) := ⟨rfl, rfl, rfl, trivial⟩
theorem RequestHead.aBlank95 (seq : Byte) (t : FrameTail) : RequestHead.Statement (.aBlank95 seq t) := ⟨rfl, rfl, rfl, trivial⟩
theorem RequestHead.aBlank96 (seq : Byte) (t : FrameTail) : RequestHead.Statement (.aBlank96 seq t) := ⟨rfl, rfl, rfl, trivial⟩
theorem RequestHead.aPresentFigures (seq : Byte) (t : FrameTail) : RequestHead.Statement (.aPresentFigures seq t) := ⟨rfl, rfl, rfl, trivial⟩
theorem RequestHead.aQueryBlock (seq sel blk : Byte) (t : FrameTail) : RequestHead.Statement (.aQueryBlock seq sel blk t) := ⟨rfl, rfl, rfl, trivial⟩
theorem RequestHead.aWriteBlock (seq sel blk : Byte) (v : Bytes) (t : FrameTail) : RequestHead.Statement (.aWriteBlock seq sel blk v t) := ⟨rfl, rfl, rfl, trivial⟩
theorem RequestHead.aFigureId (seq sel : Byte) (t : FrameTail) : RequestHead.Statement (.aFigureId seq sel t) := ⟨rfl, rfl, rfl, trivial⟩
theorem RequestHead.aBlankB5 (seq : Byte) (t : FrameTail) : RequestHead.Statement (.aBlankB5 seq t) := ⟨rfl, rfl, rfl, trivial⟩
theorem RequestHead.bActivate (arg : Byte) (ex : Bytes) : RequestHead.Statement (.bActivate arg ex) := ⟨rfl, rfl, trivial⟩
theorem RequestHead.bLedC (r g b : Byte) (ex : Bytes) : RequestHead.Statement (.bLedC r g b ex) := ⟨rfl, rfl, trivial⟩
theorem RequestHead.bLedJ (zone : Byte) (v ex : Bytes) : RequestHead.Statement (.bLedJ zone v ex) := ⟨rfl, rfl, trivial⟩
theorem RequestHead.bLedL (zone r g b : Byte) (ex : Bytes) : RequestHead.Statement (.bLedL zone r g b ex) := ⟨rfl, rfl, trivial⟩
theorem RequestHead.bQueryBlock (sb blk : Byte) (ex : Bytes) : RequestHead.Statement (.bQueryBlock sb blk ex) := ⟨rfl, rfl, trivial⟩
theorem RequestHead.bReady (x : Byte) (ex : Bytes) : RequestHead.Statement (.bReady x ex) := ⟨rfl, rfl, trivial⟩
theorem RequestHead.bStatus (ex : Bytes) : RequestHead.Statement (.bStatus ex) := ⟨rfl, rfl, trivial⟩
theorem RequestHead.bVersion (b1 b2 b3 : Byte) (ex : Bytes) : RequestHead.Statement (.bVersion b1 b2 b3 ex) := ⟨rfl, rfl, trivial⟩
theorem RequestHead.bWriteBlock (sb blk : Byte) (v ex : Bytes) : RequestHead.Statement (.bWriteBlock sb blk v ex) := ⟨rfl, rfl, trivial⟩
theorem RequestHead.aPoll (p : Bytes) : RequestHead.Statement (.aPoll p) := ⟨rfl, rfl, trivial⟩
theorem RequestHead.aIdlePoll (p : Bytes) : RequestHead.Statement (.aIdlePoll p) := ⟨rfl, rfl, trivial⟩
theorem RequestHead.bPoll (p : Bytes) : RequestHead.Statement (.bPoll p) := ⟨rfl, rfl, trivial⟩
theorem RequestHead.bAudioEcho (p : Bytes) : RequestHead.Statement (.bAudioEcho p) := ⟨rfl, rfl, trivial⟩
theorem RequestHead.bStatusFrame (p : Bytes) : RequestHead.Statement (.bStatusFrame p) := ⟨rfl, rfl, trivial⟩
theorem RequestHead.bQueuedReply (p : Bytes) : RequestHead.Statement (.bQueuedReply p) := ⟨rfl, rfl, trivial⟩
theorem RequestHead.deriveKey (uid : Bytes) : RequestHead.Statement (.deriveKey uid) := ⟨rfl, rfl, trivial⟩
theorem RequestHead.encryptBlock (key pt : Bytes) : RequestHead.Statement (.encryptBlock key pt) := ⟨rfl, rfl, trivial⟩
theorem RequestHead.decryptBlock (key ct : Bytes) : RequestHead.Statement (.decryptBlock key ct) := ⟨rfl, rfl, trivial⟩
theorem RequestHead.checksum (bs : Bytes) : RequestHead.Statement (.checksum bs) := ⟨rfl, rfl, trivial⟩
theorem RequestHead.crc32 (bs : Bytes) : RequestHead.Statement (.crc32 bs) := ⟨rfl, rfl, trivial⟩
theorem RequestHead.generateSeed (seed : U32) : RequestHead.Statement (.generateSeed seed) := ⟨rfl, rfl, trivial⟩
theorem RequestHead.getNext : RequestHead.Statement .getNext := ⟨rfl, rfl, trivial⟩
theorem RequestHead.scramble (value garbage : U32) : RequestHead.Statement (.scramble value garbage) := ⟨rfl, rfl, trivial⟩
theorem RequestHead.descramble (x : U64) : RequestHead.Statement (.descramble x) := ⟨rfl, rfl, trivial⟩
theorem RequestHead.findByNumericId (id : U16) : RequestHead.Statement (.findByNumericId id) := ⟨rfl, rfl, trivial⟩
theorem RequestHead.findByName (name : Bytes) : RequestHead.Statement (.findByName name) := ⟨rfl, rfl, trivial⟩
theorem RequestHead.allEntries : RequestHead.Statement .allEntries := ⟨rfl, rfl, trivial⟩
theorem RequestHead.isActivated : RequestHead.Statement .isActivated := ⟨rfl, rfl, trivial⟩
theorem RequestHead.activate : RequestHead.Statement .activate := ⟨rfl, rfl, trivial⟩
theorem RequestHead.deactivate : RequestHead.Statement .deactivate := ⟨rfl, rfl, trivial⟩
theorem RequestHead.getPresentFigures (seq : Byte) : RequestHead.Statement (.getPresentFigures seq) := ⟨rfl, rfl, trivial⟩
theorem RequestHead.queryBlockA (sel blk seq : Byte) : RequestHead.Statement (.queryBlockA sel blk seq) := ⟨rfl, rfl, trivial⟩
theorem RequestHead.queryBlockB (slot blk : Byte) : RequestHead.Statement (.queryBlockB slot blk) := ⟨rfl, rfl, trivial⟩
theorem RequestHead.writeBlockA (sel blk : Byte) (v : Bytes) (seq : Byte) : RequestHead.Statement (.writeBlockA sel blk v seq) := ⟨rfl, rfl, trivial⟩
theorem RequestHead.writeBlockB (slot blk : Byte) (v : Bytes) : RequestHead.Statement (.writeBlockB slot blk v) := ⟨rfl, rfl, trivial⟩
theorem RequestHead.getFigureIdentifier (sel seq : Byte) : RequestHead.Statement (.getFigureIdentifier sel seq) := ⟨rfl, rfl, trivial⟩
theorem RequestHead.loadFigureA (slot : Byte) (h : Nat) (blob : Bytes) : RequestHead.Statement (.loadFigureA slot h blob) := ⟨rfl, rfl, trivial⟩
theorem RequestHead.loadFigureB (slot : Byte) (h : Nat) (blob : Bytes) : RequestHead.Statement (.loadFigureB slot h blob) := ⟨rfl, rfl, trivial⟩
theorem RequestHead.removeFigureA (slot : Byte) : RequestHead.Statement (.removeFigureA slot) := ⟨rfl, rfl, trivial⟩
theorem RequestHead.removeFigureB (slot : Byte) : RequestHead.Statement (.removeFigureB slot) := ⟨rfl, rfl, trivial⟩
theorem RequestHead.createFigure (h : Nat) (id : U16) : RequestHead.Statement (.createFigure h id) := ⟨rfl, rfl, trivial⟩
theorem RequestHead.createFigureB (h : Nat) (id : U16) : RequestHead.Statement (.createFigureB h id) := ⟨rfl, rfl, trivial⟩
theorem RequestHead.controlTransfer (p : Bytes) : RequestHead.Statement (.controlTransfer p) := ⟨rfl, rfl, trivial⟩
theorem RequestHead.interruptPoll (p : Bytes) : RequestHead.Statement (.interruptPoll p) := ⟨rfl, rfl, trivial⟩
theorem RequestHead.cancelTransfer : RequestHead.Statement .cancelTransfer := ⟨rfl, rfl, trivial⟩
theorem RequestHead.bulkTransfer (p : Bytes) : RequestHead.Statement (.bulkTransfer p) := ⟨rfl, rfl, trivial⟩
theorem RequestHead.isochronousTransfer (p : Bytes) : RequestHead.Statement (.isochronousTransfer p) := ⟨rfl, rfl, trivial⟩

end Sys2Proof.Laws
end

