-- ==== Sys2Proof/Tests/Slice0.lean ====
section
/-! SUPPORT. Tests, each a named theorem on fixed values. Expected bytes are those of spec/95_test_vectors.md (V-*) and of
the worked examples of the rules named. Last come the witnesses: for each obligation with hypotheses, values that meet
them, at the ends of their ranges. -/

namespace Sys2Proof.Tests

set_option Elab.async false

open Sys2Proof Sys2Proof.Machine

/-! ## Helpers -/

/-- A byte string. -/
def hx (l : List Nat) : Bytes := l.map (BitVec.ofNat 8)

/-- A 32-byte reply that starts as given. -/
def reply (l : List Nat) : Bytes := hx l ++ zeros (32 - l.length)

/-- `n` copies of a byte. -/
def rep (n b : Nat) : Bytes := List.replicate n (BitVec.ofNat 8 b)

/-- The bytes 00, 01, .., 0F. -/
def upTo16 : Bytes := (List.range 16).map (BitVec.ofNat 8)

/-- The catalog entry of P2: name "X", Character, numeric id 1. -/
def entryX : CatalogEntry :=
  ⟨[0x58#8], .character, #v[0x04#8, 0x11#8, 0x22#8, 0x33#8, 0x44#8, 0x55#8, 0x66#8], 1, 0⟩

/-- A Family A instance with every OPEN parameter at a fixed value. -/
def cfgA : Params :=
  { Config.default with
    family := .a, kdfConst := Vector.replicate 31 0#8, catalog := [entryX], orderResetWhenEmpty := false, bCounterInit := 0
    dAIdle := 7, dBCtrl := 9, usbDescriptors := [] }

/-- A Family B instance with every OPEN parameter at a fixed value. -/
def cfgB : Params := { cfgA with family := .b }

/-- A Family B instance whose 'A' takes three bytes. -/
def cfgB3 : Params := { cfgB with lengthsB := { cfgB.lengthsB with activate := 3 } }

/-- Queues that hold `d` entries. -/
def cap (d : Nat) (c : Params) : Params := { c with qDepth := some d }

def sA : State := State.resetWith cfgA []
def sB : State := State.resetWith cfgB []

/-- A Family A figure: uid 04 11 .. 66, block 0 = 00 .. 0F, block 3 = 16 x 11, handle 7, order 0. -/
def figA : Slot :=
  { Slot.empty with
    present := true
    data := Memory.write (Memory.write (Memory.write [] 0x00 (hx [0x04, 0x11, 0x22, 0x33, 0x44, 0x55, 0x66])) 0x10 upTo16)
      0xC0 (rep 16 0x11)
    handle := some 7
    order := some 0 }

/-- A Family B figure: block 5 = 00 .. 0F, handle 7. -/
def figB : Slot :=
  { Slot.empty with present := true, data := Memory.write [] 0x50 upTo16, handle := some 7, status := .present }

/-- Slot `i` holds `x`, the counter is past its order. -/
def withSlot (s : State) (i : Nat) (x : Slot) : State := { s.setSlot i x with orderCounter := 1 }

def sA0 : State := withSlot sA 0 figA
def sB2 : State := withSlot sB 2 figB

/-- Every queue bounded by `d`. -/
def capped (d : Nat) (s : State) : State := { s with cfg := cap d s.cfg }

/-- The instruction bytes hold. -/
def decoded (c : Params) (e : Entry) (l : Bytes) : Option Instr :=
  match decode c ⟨e, l⟩ with
  | .ok i => some i
  | .error _ => none

/-- Why bytes hold none. -/
def rejectOf (c : Params) (e : Entry) (l : Bytes) : Option Reject :=
  match decode c ⟨e, l⟩ with
  | .ok _ => none
  | .error r => some r

/-- What a control transfer shows: its triple, and what the transfer queue holds after it. -/
def shown (o : Out) : Option (Result × List Bytes) := (nextOf o).map fun t => (t.result, t.tq)

/-- An exec that ends in a next state. -/
def runs (i : Instr) (s : State) : Bool := (nextOf (exec i s)).isSome

/-- A frame tail without unused data and trailing bytes. -/
def chk (b : Nat) : FrameTail := ⟨[], BitVec.ofNat 8 b, []⟩

/-! ## WellFormed refuses ill-formed terms -/

theorem test_wf_refuses_frame_of_other_family : WellFormed cfgB (.aActivate 1#8 (chk 0x82)) = false := by decide
theorem test_wf_refuses_frame_too_long : WellFormed cfgA (.aBlank90 1#8 ⟨zeros 254, 0#8, []⟩) = false := by decide +kernel
theorem test_wf_takes_longest_frame : WellFormed cfgA (.aBlank90 1#8 ⟨zeros 253, 0#8, []⟩) = true := by decide +kernel
theorem test_wf_refuses_wrong_checksum :
    WellFormed { cfgA with aVerifyChecksum := true } (.aActivate 1#8 (chk 0x83)) = false := by decide
theorem test_wf_takes_right_checksum :
    WellFormed { cfgA with aVerifyChecksum := true } (.aActivate 1#8 (chk 0x82)) = true := by decide
theorem test_wf_refuses_short_write_a : WellFormed cfgA (.aWriteBlock 6#8 0#8 3#8 (rep 15 0x11) (chk 0xCF)) = false := by decide
theorem test_wf_refuses_short_led_j : WellFormed cfgB (.bLedJ 0#8 (rep 4 0)) = false := by decide
theorem test_wf_refuses_long_write_b : WellFormed cfgB (.bWriteBlock 2#8 5#8 (rep 17 0)) = false := by decide
theorem test_wf_refuses_command_of_other_family : WellFormed cfgA .bStatus = false := by decide
theorem test_wf_refuses_short_uid : WellFormed cfgA (.deriveKey (rep 6 0)) = false := by decide
theorem test_wf_refuses_short_key : WellFormed cfgA (.encryptBlock (rep 15 0) (rep 16 0)) = false := by decide
theorem test_wf_refuses_short_block : WellFormed cfgA (.decryptBlock (rep 16 0) (rep 15 0)) = false := by decide
theorem test_wf_refuses_unit_query_of_other_family : WellFormed cfgB (.queryBlockA 0#8 0#8 0#8) = false := by decide
theorem test_wf_refuses_unit_write_of_other_family : WellFormed cfgA (.writeBlockB 0#8 0#8 (rep 16 0)) = false := by decide
theorem test_wf_refuses_unit_write_short : WellFormed cfgA (.writeBlockA 0#8 0#8 (rep 15 0) 0#8) = false := by decide
theorem test_wf_refuses_wide_handle : WellFormed cfgA (.loadFigureA 0#8 (2 ^ 32) []) = false := by decide
theorem test_wf_refuses_remove_of_other_family : WellFormed cfgB (.removeFigureA 0#8) = false := by decide
theorem test_wf_refuses_create_of_other_family : WellFormed cfgA (.createFigureB 0 0#16) = false := by decide
theorem test_params_wf_default : cfgA.wf = true := by decide
theorem test_params_wf_refuses_slots_a :
    Params.wf { cfgA with nSlotsA := 15, roleCodeA := zeros 15, reportLen := 64 } = false ∧
    Params.wf { cfgA with nSlotsA := 14, roleCodeA := zeros 14 } = true := by decide
theorem test_params_wf_refuses_slots_b : Params.wf { cfgA with nSlotsB := 17 } = false := by decide
theorem test_params_wf_refuses_role_codes : Params.wf { cfgA with roleCodeA := [0x10#8] } = false := by decide
theorem test_params_wf_refuses_uid_offset : Params.wf { cfgA with uidOffset := 0x13A } = false := by decide
theorem test_params_wf_refuses_meta_offset : Params.wf { cfgA with metaOffset := 0x131 } = false := by decide
theorem test_params_wf_refuses_order_initial : Params.wf { cfgA with orderInitial := 0x101 } = false := by decide
theorem test_params_wf_refuses_order_max : Params.wf { cfgA with orderMax := 0x100 } = false := by decide
theorem test_params_wf_refuses_report_len : Params.wf { cfgA with reportLen := 31 } = false := by decide
theorem test_params_wf_refuses_buf_len_a : Params.wf { cfgA with bufLenA := 0x13F } = false := by decide
theorem test_params_wf_refuses_buf_len_b : Params.wf { cfgA with bufLenB := 0x3FF } = false := by decide
theorem test_params_wf_refuses_markers :
    Params.wf { cfgA with markers := [(0x13F, 1#8), (0x140, 1#8)] } = false := by decide
theorem test_params_wf_refuses_mask : Params.wf { cfgA with scrambleMask := 0x8E55AA1B3999E8AB#64 } = false := by decide
theorem test_params_wf_refuses_zero_prng_a0 : Params.wf { cfgA with prngA0 := 0#32 } = false := by decide
theorem test_meta_layout_wf_refuses :
    MetaLayout.wf ⟨12, 1, 3, 12⟩ = false ∧ MetaLayout.wf ⟨0, 11, 3, 12⟩ = false ∧ MetaLayout.wf ⟨0, 1, 12, 12⟩ = false ∧
    MetaLayout.wf ⟨0, 1, 3, 11⟩ = false ∧ MetaLayout.wf ⟨3, 1, 3, 12⟩ = false ∧ MetaLayout.wf ⟨2, 1, 3, 12⟩ = false ∧
    MetaLayout.wf ⟨0, 1, 2, 12⟩ = false := by decide
theorem test_params_wf_refuses_meta_layout : Params.wf { cfgA with metaLayout := ⟨0, 15, 3, 12⟩ } = false := by decide
theorem test_lengths_b_wf_refuses :
    LengthsB.wf ⟨1, 4, 7, 5, 3, 2, 1, 4, 19⟩ = false ∧ LengthsB.wf ⟨2, 3, 7, 5, 3, 2, 1, 4, 19⟩ = false ∧
    LengthsB.wf ⟨2, 4, 6, 5, 3, 2, 1, 4, 19⟩ = false ∧ LengthsB.wf ⟨2, 4, 7, 4, 3, 2, 1, 4, 19⟩ = false ∧
    LengthsB.wf ⟨2, 4, 7, 5, 2, 2, 1, 4, 19⟩ = false ∧ LengthsB.wf ⟨2, 4, 7, 5, 3, 1, 1, 4, 19⟩ = false ∧
    LengthsB.wf ⟨2, 4, 7, 5, 3, 2, 0, 4, 19⟩ = false ∧ LengthsB.wf ⟨2, 4, 7, 5, 3, 2, 1, 3, 19⟩ = false ∧
    LengthsB.wf ⟨2, 4, 7, 5, 3, 2, 1, 4, 18⟩ = false := by decide
theorem test_params_wf_refuses_lengths_b :
    Params.wf { cfgA with lengthsB := ⟨1, 4, 7, 5, 3, 2, 1, 4, 19⟩ } = false := by decide
theorem test_wf_refuses_byte_after_operands : WellFormed cfgB (.bActivate 1#8 [0#8]) = false := by decide
theorem test_wf_refuses_missing_byte_after_operands : WellFormed cfgB3 (.bActivate 1#8 []) = false := by decide

/-! ## Decoding, words written from 30_encoding.md -/

theorem test_decode_a_activate : decoded cfgA .dispatcher (hx [0xFF, 0x02, 0x80, 0x01, 0x82]) =
    some (.aActivate 1#8 (chk 0x82)) := by decide
theorem test_decode_a_seed :
    decoded cfgA .dispatcher (hx [0xFF, 0x0A, 0x81, 0x02, 0x01, 0x16, 0x18, 0x88, 0x10, 0x50, 0x20, 0x40, 0x03]) =
      some (.aSeed 2#8 0x0116188810502040#64 (chk 0x03)) := by decide
theorem test_decode_a_next_random : decoded cfgA .dispatcher (hx [0xFF, 0x02, 0x83, 0x03, 0x87]) =
    some (.aNextRandom 3#8 (chk 0x87)) := by decide
theorem test_decode_a_blank_with_data :
    decoded cfgA .dispatcher (hx [0xFF, 0x05, 0x90, 0x20, 0x01, 0x02, 0x03, 0xBA, 0xEE]) =
      some (.aBlank90 0x20#8 ⟨hx [1, 2, 3], 0xBA#8, [0xEE#8]⟩) := by decide
theorem test_decode_a_blank91 : decoded cfgA .dispatcher (hx [0xFF, 2, 0x91, 1, 0x93]) = some (.aBlank91 1#8 (chk 0x93)) := by
  decide
theorem test_decode_a_blank92 : decoded cfgA .dispatcher (hx [0xFF, 2, 0x92, 1, 0x94]) = some (.aBlank92 1#8 (chk 0x94)) := by
  decide
theorem test_decode_a_blank93 : decoded cfgA .dispatcher (hx [0xFF, 2, 0x93, 1, 0x95]) = some (.aBlank93 1#8 (chk 0x95)) := by
  decide
theorem test_decode_a_blank94 : decoded cfgA .dispatcher (hx [0xFF, 2, 0x94, 1, 0x96]) = some (.aBlank94 1#8 (chk 0x96)) := by
  decide
theorem test_decode_a_blank95 : decoded cfgA .dispatcher (hx [0xFF, 2, 0x95, 1, 0x97]) = some (.aBlank95 1#8 (chk 0x97)) := by
  decide
theorem test_decode_a_blank96 : decoded cfgA .dispatcher (hx [0xFF, 2, 0x96, 1, 0x98]) = some (.aBlank96 1#8 (chk 0x98)) := by
  decide
theorem test_decode_a_present_figures : decoded cfgA .dispatcher (hx [0xFF, 2, 0xA1, 5, 0xA7]) =
    some (.aPresentFigures 5#8 (chk 0xA7)) := by decide
theorem test_decode_a_query_block : decoded cfgA .dispatcher (hx [0xFF, 4, 0xA2, 4, 0, 3, 0xAC]) =
    some (.aQueryBlock 4#8 0#8 3#8 (chk 0xAC)) := by decide
theorem test_decode_a_write_block :
    decoded cfgA .dispatcher (hx [0xFF, 0x14, 0xA3, 6, 0, 3] ++ rep 16 0x11 ++ [0xCF#8]) =
      some (.aWriteBlock 6#8 0#8 3#8 (rep 16 0x11) (chk 0xCF)) := by decide
theorem test_decode_a_figure_id : decoded cfgA .dispatcher (hx [0xFF, 3, 0xB4, 5, 0, 0xBB]) =
    some (.aFigureId 5#8 0#8 (chk 0xBB)) := by decide
theorem test_decode_a_blank_b5 : decoded cfgA .dispatcher (hx [0xFF, 2, 0xB5, 0xFF, 0xB5]) =
    some (.aBlankB5 0xFF#8 (chk 0xB5)) := by decide
theorem test_decode_b_activate : decoded cfgB .dispatcher (hx [0x41, 0x7F]) = some (.bActivate 0x7F#8) := by decide
theorem test_decode_b_activate_of_other_length :
    decoded cfgB3 .dispatcher (hx [0x41, 1, 9]) = some (.bActivate 1#8 [9#8]) ∧
    rejectOf cfgB3 .dispatcher (hx [0x41, 1]) = some .wrongLength := by decide
theorem test_decode_b_led_c : decoded cfgB .dispatcher (hx [0x43, 0xFF, 1, 2]) = some (.bLedC 0xFF#8 1#8 2#8) := by decide
theorem test_decode_b_led_j : decoded cfgB .dispatcher (hx [0x4A, 0, 0xFF, 0, 0, 0, 0x10]) =
    some (.bLedJ 0#8 (hx [0xFF, 0, 0, 0, 0x10])) := by decide
theorem test_decode_b_led_l : decoded cfgB .dispatcher (hx [0x4C, 2, 0, 0xFF, 1]) = some (.bLedL 2#8 0#8 0xFF#8 1#8) := by decide
theorem test_decode_b_query_block : decoded cfgB .dispatcher (hx [0x51, 0x12, 5]) = some (.bQueryBlock 0x12#8 5#8) := by decide
theorem test_decode_b_ready : decoded cfgB .dispatcher (hx [0x52, 0]) = some (.bReady 0#8) := by decide
theorem test_decode_b_status : decoded cfgB .dispatcher (hx [0x53]) = some .bStatus := by decide
theorem test_decode_b_version : decoded cfgB .dispatcher (hx [0x56, 1, 2, 3]) = some (.bVersion 1#8 2#8 3#8) := by decide
theorem test_decode_b_write_block : decoded cfgB .dispatcher (hx [0x57, 2, 5] ++ upTo16) =
    some (.bWriteBlock 2#8 5#8 upTo16) := by decide
theorem test_decode_poll_handlers :
    decoded cfgA .pollA (hx [0x41]) = some (.aPoll []) ∧ decoded cfgA .idlePollA (hx [0x41]) = some (.aIdlePoll []) ∧
    decoded cfgB .pollB (hx [0x41]) = some (.bPoll []) ∧
    decoded cfgB .audioEchoB (0x41#8 :: rep 33 9) = some (.bAudioEcho (rep 33 9)) ∧
    decoded cfgB .statusFrameB (hx [0x41]) = some (.bStatusFrame []) ∧
    decoded cfgB .queuedReplyB (hx [0x41, 1]) = some (.bQueuedReply (hx [1])) := by decide
theorem test_decode_crypto_units :
    decoded cfgA .unit (0x01#8 :: rep 7 9) = some (.deriveKey (rep 7 9)) ∧
    decoded cfgA .unit (0x02#8 :: (rep 16 1 ++ rep 16 2)) = some (.encryptBlock (rep 16 1) (rep 16 2)) ∧
    decoded cfgA .unit (0x03#8 :: (rep 16 1 ++ rep 16 2)) = some (.decryptBlock (rep 16 1) (rep 16 2)) ∧
    decoded cfgA .unit (hx [4, 5, 6]) = some (.checksum (hx [5, 6])) ∧
    decoded cfgA .unit (hx [5, 0]) = some (.crc32 (hx [0])) := by decide
theorem test_decode_scramble_units :
    decoded cfgA .unit (hx [0x10, 0x12, 0x34, 0x56, 0x78]) = some (.generateSeed 0x12345678#32) ∧
    decoded cfgA .unit (hx [0x11]) = some .getNext ∧
    decoded cfgA .unit (hx [0x12, 0x12, 0x34, 0x56, 0x78, 0, 0, 0, 1]) = some (.scramble 0x12345678#32 1#32) ∧
    decoded cfgA .unit (hx [0x13, 1, 0x16, 0x18, 0x88, 0x10, 0x50, 0x20, 0x40]) =
      some (.descramble 0x0116188810502040#64) := by decide
theorem test_decode_catalog_units :
    decoded cfgA .unit (hx [0x20, 0, 1]) = some (.findByNumericId 1#16) ∧
    decoded cfgA .unit (hx [0x21, 0x58]) = some (.findByName (hx [0x58])) ∧
    decoded cfgA .unit (hx [0x22]) = some .allEntries := by decide
theorem test_decode_registry_units :
    decoded cfgA .unit (hx [0x23]) = some .isActivated ∧ decoded cfgA .unit (hx [0x24]) = some .activate ∧
    decoded cfgA .unit (hx [0x25]) = some .deactivate ∧ decoded cfgA .unit (hx [0x26, 5]) = some (.getPresentFigures 5#8) ∧
    decoded cfgA .unit (hx [0x27, 0, 3, 4]) = some (.queryBlockA 0#8 3#8 4#8) ∧
    decoded cfgB .unit (hx [0x27, 2, 5]) = some (.queryBlockB 2#8 5#8) ∧
    decoded cfgA .unit (hx [0x28, 0, 3] ++ upTo16 ++ [6#8]) = some (.writeBlockA 0#8 3#8 upTo16 6#8) ∧
    decoded cfgB .unit (hx [0x28, 2, 5] ++ upTo16) = some (.writeBlockB 2#8 5#8 upTo16) ∧
    decoded cfgA .unit (hx [0x29, 0, 5]) = some (.getFigureIdentifier 0#8 5#8) := by decide
theorem test_decode_management :
    decoded cfgA .management (hx [0x30, 1, 0, 0, 1, 2, 0xAA]) = some (.loadFigureA 1#8 0x102 [0xAA#8]) ∧
    decoded cfgB .management (hx [0x30, 1, 0, 0, 1, 2]) = some (.loadFigureB 1#8 0x102 []) ∧
    decoded cfgA .management (hx [0x31, 1]) = some (.removeFigureA 1#8) ∧
    decoded cfgB .management (hx [0x31, 1]) = some (.removeFigureB 1#8) ∧
    decoded cfgA .management (hx [0x32, 0, 0, 0, 7, 0, 1]) = some (.createFigure 7 1#16) ∧
    decoded cfgB .management (hx [0x32, 0, 0, 0, 7, 0, 1]) = some (.createFigureB 7 1#16) := by decide
theorem test_decode_host :
    decoded cfgA .host (hx [0x40, 0x53]) = some (.controlTransfer (hx [0x53])) ∧
    decoded cfgA .host (hx [0x41]) = some (.interruptPoll []) ∧ decoded cfgA .host (hx [0x42]) = some .cancelTransfer ∧
    decoded cfgA .host (hx [0x43, 1]) = some (.bulkTransfer (hx [1])) ∧
    decoded cfgA .host (hx [0x44]) = some (.isochronousTransfer []) := by decide
theorem test_decode_rejects_a :
    rejectOf cfgA .dispatcher (hx [0xFF, 2, 0x82, 1, 0x84]) = some .unknownCommand ∧
    rejectOf cfgA .dispatcher (hx [0xFF, 2, 0x81, 1, 0x83]) = some .truncated ∧
    rejectOf cfgA .dispatcher (hx [0xFF, 5, 0x80, 1]) = some .notWellFramed ∧
    rejectOf cfgA .dispatcher (hx [0xAA, 2, 0x80, 1, 0x2D]) = some .notWellFramed ∧
    rejectOf cfgA .dispatcher (hx [0xFF, 1, 0x80, 1, 0x82]) = some .notWellFramed ∧
    rejectOf { cfgA with aVerifyChecksum := true } .dispatcher (hx [0xFF, 2, 0x80, 1, 0]) = some .badChecksum := by decide
theorem test_decode_rejects_b :
    rejectOf cfgB .dispatcher [] = some .emptyPayload ∧ rejectOf cfgB .dispatcher (hx [0x61, 1]) = some .unknownCommand ∧
    rejectOf cfgB .dispatcher (hx [0x41, 1, 0]) = some .wrongLength := by decide
theorem test_decode_rejects_ports :
    rejectOf cfgA .host (hx [0x30, 1]) = some .unknownOp ∧ rejectOf cfgA .management (hx [0x40]) = some .unknownOp ∧
    rejectOf cfgA .unit [] = some .emptyRequest ∧ rejectOf cfgA .unit (hx [0x10, 1]) = some .badOperands := by decide
theorem test_decode_table_words :
    decodeTableWord 24 0xFF0080 = some (.aActivate 0#8 ⟨[], 0#8, []⟩) ∧
    decodeTableWord 8 0x53 = some .bStatus ∧ decodeTableWord 8 0x42 = some .cancelTransfer ∧
    decodeTableWord 8 0x31 = some (.removeFigureA 0#8) := by decide

/-! ## One step of each instruction -/

theorem test_a_activate_v_a1 : (nextOf (exec (.controlTransfer (hx [0xFF, 2, 0x80, 1, 0x82])) sA)).map
      (fun t => (t.activated, t.result, t.tq)) =
    some (true, .triple (hx [0xFF, 2, 0x80, 1, 0x82]) 5 500,
      [reply [0xAA, 0x15, 0, 0, 0x0F, 1, 0, 3, 2, 9, 9, 0x43, 0x20, 0x32, 0x62, 0x36, 0x36, 0x4B, 0x34, 0x99, 0x67, 0x31, 0x93,
        0x8C]]) := by decide +kernel
theorem test_a_seed_v_a2 : (nextOf (exec (.aSeed 2#8 0x0116188810502040#64 (chk 3)) sA)).map (fun t => (t.prng, t.tq)) =
    some (⟨0x422F0A19#32, 0x821A9CC1#32, 0xCCC2BCEE#32, 0xE6D195A6#32, true⟩, [reply [0xAA, 1, 2, 0xAD]]) := by
  decide +kernel
/-- The state after V-A2, its reply taken. -/
def sSeeded : State := { sA with prng := ⟨0x422F0A19#32, 0x821A9CC1#32, 0xCCC2BCEE#32, 0xE6D195A6#32, true⟩ }
theorem test_a_next_random_v_a4 : shown (exec (.aNextRandom 3#8 (chk 0x87)) sSeeded) =
    some (.triple (hx [0xFF, 2, 0x83, 3, 0x87]) 5 500,
      [reply [0xAA, 9, 3, 0x54, 0x16, 0x11, 0x90, 0x90, 0x15, 0x80, 0x60, 0x46]]) := by decide +kernel
theorem test_a_next_random_v_a6 :
    shown (exec (.aNextRandom 3#8 (chk 0x87)) { sSeeded with garbage := 0xFFFFFFFF#32 }) =
      some (.triple (hx [0xFF, 2, 0x83, 3, 0x87]) 5 500,
        [reply [0xAA, 9, 3, 0xFE, 0xFE, 0x77, 0xF3, 0xB7, 0xBF, 0xD5, 0xEE, 0x55]]) := by decide +kernel
theorem test_a_blank_90_v_a10 : shown (exec (.aBlank90 0x20#8 ⟨hx [1, 2, 3], 0xBA#8, []⟩) sA) =
    some (.triple (hx [0xFF, 5, 0x90, 0x20, 1, 2, 3, 0xBA]) 8 500, [reply [0xAA, 1, 0x20, 0xCB]]) := by decide +kernel
theorem test_a_blank_91_v_a9 : shown (exec (.aBlank91 1#8 (chk 0x93)) sA) =
    some (.triple (hx [0xFF, 2, 0x91, 1, 0x93]) 5 500, [reply [0xAA, 1, 1, 0xAC]]) := by decide +kernel
theorem test_a_blank_92_v_a9 : shown (exec (.aBlank92 1#8 (chk 0x94)) sA) =
    some (.triple (hx [0xFF, 2, 0x92, 1, 0x94]) 5 500, [reply [0xAA, 1, 1, 0xAC]]) := by decide +kernel
theorem test_a_blank_93_v_a9 : shown (exec (.aBlank93 1#8 (chk 0x95)) sA) =
    some (.triple (hx [0xFF, 2, 0x93, 1, 0x95]) 5 500, [reply [0xAA, 1, 1, 0xAC]]) := by decide +kernel
theorem test_a_blank_94_v_a9 : shown (exec (.aBlank94 1#8 (chk 0x96)) sA) =
    some (.triple (hx [0xFF, 2, 0x94, 1, 0x96]) 5 500, [reply [0xAA, 1, 1, 0xAC]]) := by decide +kernel
theorem test_a_blank_95_v_a9 : shown (exec (.aBlank95 1#8 (chk 0x97)) sA) =
    some (.triple (hx [0xFF, 2, 0x95, 1, 0x97]) 5 500, [reply [0xAA, 1, 1, 0xAC]]) := by decide +kernel
theorem test_a_blank_96_v_a9 : shown (exec (.aBlank96 1#8 (chk 0x98)) sA) =
    some (.triple (hx [0xFF, 2, 0x96, 1, 0x98]) 5 500, [reply [0xAA, 1, 1, 0xAC]]) := by decide +kernel
theorem test_a_blank_b5_v_a11 : shown (exec (.aBlankB5 0xFF#8 (chk 0xB5)) sA) =
    some (.triple (hx [0xFF, 2, 0xB5, 0xFF, 0xB5]) 5 500, [reply [0xAA, 1, 0xFF, 0xAA]]) := by decide +kernel
theorem test_a_present_figures_v_a12 : shown (exec (.aPresentFigures 5#8 (chk 0xA7)) (withSlot sA 1 figA)) =
    some (.triple (hx [0xFF, 2, 0xA1, 5, 0xA7]) 5 500, [reply [0xAA, 3, 5, 0x20, 9, 0xDB]]) := by decide +kernel
theorem test_a_query_block_v_a14 : shown (exec (.aQueryBlock 4#8 0#8 3#8 (chk 0xAC)) sA0) =
    some (.triple (hx [0xFF, 4, 0xA2, 4, 0, 3, 0xAC]) 7 500,
      [hx [0xAA, 0x12, 4, 0] ++ rep 16 0x11 ++ reply [0xD0] |>.take 32]) := by decide +kernel
theorem test_a_query_block_v_a15 : shown (exec (.aQueryBlock 4#8 0#8 3#8 (chk 0xAC)) sA) =
    some (.triple (hx [0xFF, 4, 0xA2, 4, 0, 3, 0xAC]) 7 500,
      [hx [0xAA, 0x12, 4, 1] ++ zeros 16 ++ reply [0xC1] |>.take 32]) := by decide +kernel
theorem test_a_write_block_v_a18 :
    (nextOf (exec (.aWriteBlock 6#8 0#8 4#8 (rep 16 0x22) (chk 0)) sA0)).map
        (fun t => (t.tq, t.memRead 0 0x100 16, t.memRead 0 0xC0 16, t.storeCalls.length)) =
      some ([reply [0xAA, 2, 6, 0, 0xB2]], rep 16 0x22, rep 16 0x11, 1) := by decide +kernel
theorem test_a_write_block_v_a19 :
    (nextOf (exec (.aWriteBlock 6#8 0#8 4#8 (rep 16 0x22) (chk 0)) { sA0 with storeAnswer := false })).map
        (fun t => (t.tq, t.slots)) =
      some ([reply [0xAA, 2, 6, 1, 0xB3]], sA0.slots) := by decide +kernel
theorem test_a_figure_id_v_a21 : shown (exec (.aFigureId 5#8 0#8 (chk 0xBB)) sA0) =
    some (.triple (hx [0xFF, 3, 0xB4, 5, 0, 0xBB]) 6 500,
      [reply [0xAA, 8, 5, 4, 0x11, 0x22, 0x33, 0x44, 0x55, 0x66, 0x20]]) := by decide +kernel
theorem test_a_figure_id_v_a22 : shown (exec (.aFigureId 5#8 0#8 (chk 0xBB)) sA) =
    some (.triple (hx [0xFF, 3, 0xB4, 5, 0, 0xBB]) 6 500,
      [reply [0xAA, 8, 5, 0, 0, 0, 0, 0, 0, 0, 0xB7]]) := by decide +kernel
theorem test_b_activate_v_b1 : (nextOf (exec (.bActivate 1#8) sB)).map (fun t => (t.activated, t.result, t.tq)) =
    some (true, .triple (hx [0x41, 1]) 2 9, [reply [0x41, 1, 0xFF, 0x77]]) := by decide +kernel
theorem test_b_activate_echoes_bytes_after_operands :
    shown (exec (.controlTransfer (hx [0x41, 1, 9])) (State.resetWith cfgB3 [])) =
      some (.triple (hx [0x41, 1, 9]) 3 9, [reply [0x41, 1, 0xFF, 0x77]]) := by decide +kernel
/-- V-RG14's slot. -/
def figFresh : Slot := { figB with status := .absent, squeue := [.added, .present] }
theorem test_b_activate_v_b2 : (nextOf (exec (.bActivate 0#8) { withSlot sB 0 figFresh with activated := true })).map
      (fun t => (t.activated, (t.slotAt 0).status, (t.slotAt 0).squeue)) = some (false, .present, []) := by decide +kernel
theorem test_b_led_c_v_b5 : (nextOf (exec (.bLedC 0xFF#8 0#8 0#8) sB)).map (fun t => (t.tq, t.led)) =
    some ([], [(0x4300, hx [0xFF, 0, 0])]) := by decide +kernel
theorem test_b_led_j_v_b6 : (nextOf (exec (.bLedJ 0#8 (hx [0xFF, 0, 0, 0, 0x10])) sB)).map (fun t => (t.tq, t.led)) =
    some ([reply [0x4A]], [(0x4A00, hx [0xFF, 0, 0, 0, 0x10])]) := by decide +kernel
theorem test_b_led_l_v_b7 : (nextOf (exec (.bLedL 2#8 0#8 0xFF#8 0#8) sB)).map (fun t => (t.tq, t.led)) =
    some ([], [(0x4C02, hx [0, 0xFF, 0])]) := by decide +kernel
theorem test_b_query_block_v_b9 : shown (exec (.bQueryBlock 2#8 5#8) sB2) =
    some (.triple (hx [0x51, 2, 5]) 3 9, [hx [0x51, 0x12, 5] ++ upTo16 ++ zeros 13]) := by decide +kernel
theorem test_b_query_block_v_b10 : shown (exec (.bQueryBlock 2#8 5#8) sB) =
    some (.triple (hx [0x51, 2, 5]) 3 9, [reply [0x51, 1, 5]]) := by decide +kernel
theorem test_b_ready_v_b12 : shown (exec (.bReady 0#8) sB) =
    some (.triple (hx [0x52, 0]) 2 9, [reply [0x52, 2, 0x1B]]) := by decide +kernel
theorem test_b_status_v_b13 : shown (exec .bStatus sB) = some (.triple (hx [0x53]) 1 9, []) := by decide +kernel
theorem test_b_version_v_b14 : shown (exec (.bVersion 1#8 2#8 3#8) sB) =
    some (.triple (hx [0x56, 1, 2, 3]) 4 9, [reply [0x56, 1, 2, 3]]) := by decide +kernel
theorem test_b_write_block_v_b15 :
    (nextOf (exec (.bWriteBlock 2#8 6#8 upTo16) sB2)).map (fun t => (t.tq, t.memRead 2 0x60 16, t.storeCalls.length)) =
      some ([reply [0x57, 0x12, 6]], upTo16, 1) := by decide +kernel
theorem test_b_write_block_v_b16 :
    (nextOf (exec (.bWriteBlock 2#8 5#8 upTo16) sB)).map (fun t => (t.tq, t.memRead 2 0x50 16, t.storeCalls)) =
      some ([reply [0x57, 1, 5]], upTo16, []) := by decide +kernel
/-- V-A33's queues. -/
def sQueues : State := { sA with tq := [reply [1]], notif := [reply [2]] }
theorem test_a_poll_v_a33 : (nextOf (exec (.aPoll []) sQueues)).map (fun t => (t.result, t.tq, t.notif)) =
    some (.triple (reply [1]) 32 1000, [], [reply [2]]) := by decide +kernel
theorem test_a_poll_notif_v_a33 : (nextOf (exec (.aPoll []) { sQueues with tq := [] })).map (fun t => (t.result, t.notif)) =
    some (.triple (reply [2]) 32 1000, []) := by decide +kernel
theorem test_a_idle_poll_v_a32 : resultOf (exec (.aIdlePoll []) sA) = some (.triple (zeros 32) 32 7) := by decide +kernel
theorem test_a_idle_poll_not_selected : refusalOf (exec (.aIdlePoll []) sQueues) = some .handlerNotSelected := by decide +kernel
theorem test_b_poll_v_b20 : shown (exec (.bPoll (rep 32 1)) { sB with tq := [reply [5]] }) =
    some (.triple (reply [5]) 32 22, []) := by decide +kernel
theorem test_b_audio_echo_v_b19 : shown (exec (.bAudioEcho (rep 33 1)) { sB with tq := [reply [5]] }) =
    some (.triple (rep 33 1) 33 1, [reply [5]]) := by decide +kernel
theorem test_b_status_frame_v_b21 :
    (nextOf (exec (.bStatusFrame []) { withSlot sB 0 figFresh with activated := true })).map
        (fun t => (t.result, (t.slotAt 0).status, (t.slotAt 0).squeue, t.counter)) =
      some (.triple (reply [0x53, 0, 0, 0, 3, 0, 1]) 32 2, .added, [.present], 1#8) := by decide +kernel
theorem test_b_status_frame_v_b25 :
    (nextOf (exec (.bStatusFrame []) { withSlot sB 15 figFresh with counter := 0x10#8 })).map (fun t => (t.result, t.counter)) =
      some (.triple (reply [0x53, 0xC0, 0, 0, 0, 0x10, 0]) 32 2, 0x11#8) := by decide +kernel
theorem test_b_queued_reply_v_b20 : shown (exec (.bQueuedReply (rep 32 1)) { sB with tq := [reply [5], reply [6]] }) =
    some (.triple (reply [5]) 32 22, [reply [6]]) := by decide +kernel
theorem test_derive_key_v_c9 : resultOf (exec (.deriveKey (zeros 7)) sA) =
    some (.bytes (hx [0x08, 0xC9, 0x76, 0xD5, 0x02, 0xD0, 0x3E, 0xB4, 0x57, 0x25, 0xD1, 0x3C, 0x20, 0x1F, 0x83, 0xD5])) := by
  decide +kernel
/-- The key of V-C11. -/
def keyC11 : Bytes := upTo16
/-- The plaintext of V-C11. -/
def plainC11 : Bytes := (List.range 16).map fun k => BitVec.ofNat 8 (17 * k)
/-- The ciphertext of V-C11. -/
def cipherC11 : Bytes :=
  hx [0x69, 0xC4, 0xE0, 0xD8, 0x6A, 0x7B, 0x04, 0x30, 0xD8, 0xCD, 0xB7, 0x80, 0x70, 0xB4, 0xC5, 0x5A]
theorem test_encrypt_block_v_c11 : resultOf (exec (.encryptBlock keyC11 plainC11) sA) = some (.bytes cipherC11) := by
  decide +kernel
theorem test_encrypt_block_v_c13 :
    resultOf (exec (.encryptBlock
        (hx [0x56, 0x8E, 0xB1, 0xAB, 0x9E, 0xBF, 0xA1, 0xD5, 0xA1, 0xB6, 0xF2, 0xA3, 0xC5, 0x03, 0xB2, 0xE2]) (zeros 16)) sA) =
      some (.bytes (hx [0x87, 0xBB, 0xEA, 0x02, 0x1D, 0x5E, 0x8D, 0x75, 0x33, 0xE4, 0x76, 0x07, 0x37, 0xEB, 0x53, 0x42])) := by
  decide +kernel
theorem test_decrypt_block_v_c12 : resultOf (exec (.decryptBlock keyC11 cipherC11) sA) = some (.bytes plainC11) := by
  decide +kernel
theorem test_decrypt_block_v_c15 :
    resultOf (exec (.decryptBlock
        (hx [0x56, 0x8E, 0xB1, 0xAB, 0x9E, 0xBF, 0xA1, 0xD5, 0xA1, 0xB6, 0xF2, 0xA3, 0xC5, 0x03, 0xB2, 0xE2]) (zeros 16)) sA) =
      some (.bytes (hx [0x4F, 0xA0, 0xD0, 0x35, 0xD6, 0x92, 0xCF, 0xCB, 0xC7, 0x1E, 0x26, 0x25, 0xA0, 0x49, 0xBC, 0xDC])) := by
  decide +kernel
/-- An instance whose cipher is another one. -/
def cfgOther : Params := { cfgA with cipherAlgorithm := .other 1 }
theorem test_decrypt_block_other_cipher :
    decryptBlockOp cfgOther keyC11 (encryptBlockOp cfgOther keyC11 plainC11) = plainC11 := by
  show permuteBlock _ (permuteBlock _ _) = _
  exact permuteBlock_reverse _ _
theorem test_checksum_v_c1 : resultOf (exec (.checksum (hx [0xFF, 2, 0x80, 1])) sA) = some (.byte 0x82#8) := by decide +kernel
theorem test_checksum_v_c3 : resultOf (exec (.checksum (rep 256 0xFF)) sA) = some (.byte 0x00#8) := by decide +kernel
theorem test_crc32_v_c4 : resultOf (exec (.crc32 (hx [0x31, 0x32, 0x33, 0x34, 0x35, 0x36, 0x37, 0x38, 0x39])) sA) =
    some (.word 0xCBF43926#32) := by decide +kernel
theorem test_crc32_v_c8 : resultOf (exec (.crc32 (hx [0, 0, 1] ++ zeros 9)) sA) = some (.word 0x9417AD51#32) := by decide +kernel
theorem test_generate_seed_v_p2 : (nextOf (exec (.generateSeed 0#32) sA)).map State.prng =
    some ⟨0x35501F65#32, 0x46AB59E2#32, 0x5630D1A6#32, 0xF12BE876#32, true⟩ := by decide +kernel
theorem test_get_next_v_p1 :
    (nextOf (exec .getNext { sA with prng := ⟨0xF1EA5EED#32, 1#32, 1#32, 1#32, true⟩ })).map (fun t => (t.prng, t.result)) =
      some (⟨0x00020001#32, 0x00000002#32, 0xE9EA5EEE#32, 0xE9EC5EEE#32, true⟩, .word 0xE9EC5EEE#32) := by decide +kernel
theorem test_get_next_v_p8 : faultOf (exec .getNext sA) = some .unseededPrng := by decide +kernel
theorem test_scramble_v_s3 : resultOf (exec (.scramble 0xDEADBEEF#32 0x01234567#32) sA) =
    some (.dword 0xFD675D96BC316A51#64) := by decide +kernel
theorem test_scramble_v_s4 : resultOf (exec (.scramble 1#32 0#32) sA) = some (.dword 0x4000000000000000#64) := by decide +kernel
theorem test_descramble_v_s10 : resultOf (exec (.descramble 0xABFE7EEB37FA75CE#64) sA) = some (.word 0x12345678#32) := by
  decide +kernel
theorem test_descramble_v_s12 : resultOf (exec (.descramble 0x8E55AA1B3999E8AA#64) sA) = some (.word 0x27AC65B4#32) := by
  decide +kernel
theorem test_find_by_numeric_id_r180 : resultOf (exec (.findByNumericId 1#16) sA) = some (.optName (some [0x58#8])) ∧
    resultOf (exec (.findByNumericId 2#16) sA) = some (.optName none) := by decide +kernel
theorem test_find_by_name_r181 : resultOf (exec (.findByName [0x58#8]) sA) = some (.optEntry (some entryX)) ∧
    resultOf (exec (.findByName [0x78#8]) sA) = some (.optEntry none) := by decide +kernel
theorem test_all_entries_r182 : resultOf (exec .allEntries sA) = some (.entries [entryX]) := by decide +kernel
theorem test_is_activated_r185 : resultOf (exec .isActivated sA) = some (.bit false) := by decide +kernel
theorem test_activate_r186 : (nextOf (exec .activate sA)).map State.activated = some true := by decide +kernel
theorem test_deactivate_v_rg14 : (nextOf (exec .deactivate { withSlot sB 0 figFresh with activated := true })).map
      (fun t => (t.activated, (t.slotAt 0).status, (t.slotAt 0).squeue)) = some (false, .present, []) := by decide +kernel
theorem test_get_present_figures_v_rg3 :
    resultOf (exec (.getPresentFigures 5#8) ((withSlot sA 0 figA).setSlot 3 { figA with order := some 1 })) =
      some (.bytes (reply [0xAA, 5, 5, 0x10, 9, 0x22, 9, 0xF8])) := by decide +kernel
theorem test_query_block_a_v_a20 : resultOf (exec (.queryBlockA 0#8 0#8 2#8) sA0) =
    some (.bytes (hx [0xAA, 0x12, 2, 0] ++ upTo16 ++ reply [0x36] |>.take 32)) := by decide +kernel
theorem test_query_block_b_r190 : resultOf (exec (.queryBlockB 2#8 5#8) sB2) =
    some (.bytes (hx [0x51, 0x12, 5] ++ upTo16 ++ zeros 13)) := by decide +kernel
theorem test_write_block_a_v_a18 : (nextOf (exec (.writeBlockA 0#8 1#8 upTo16 6#8) sA0)).map
      (fun t => (t.result, t.memRead 0 0x40 16)) = some (.bytes (reply [0xAA, 2, 6, 0, 0xB2]), upTo16) := by decide +kernel
theorem test_write_block_b_r193 : (nextOf (exec (.writeBlockB 2#8 63#8 upTo16) sB2)).map
      (fun t => (t.result, t.memRead 2 0x3F0 16)) = some (.bytes (reply [0x57, 0x12, 63]), upTo16) := by decide +kernel
theorem test_get_figure_identifier_v_a21 : resultOf (exec (.getFigureIdentifier 0#8 5#8) sA0) =
    some (.bytes (reply [0xAA, 8, 5, 4, 0x11, 0x22, 0x33, 0x44, 0x55, 0x66, 0x20])) := by decide +kernel
theorem test_load_figure_a_v_rg6 : (nextOf (exec (.loadFigureA 1#8 7 (zeros 0x140)) sA)).map
      (fun t => (t.notif, t.orderCounter, (t.slotAt 1).order, (t.slotAt 1).handle)) =
    some ([reply [0xAB, 4, 0x20, 9, 0, 0, 0xD8]], 1, some 0, some 7) := by decide +kernel
theorem test_load_figure_a_v_rg10 : (nextOf (exec (.loadFigureA 0#8 7 (zeros 0x13F)) sA)).map (fun t => (t.result, t.slots)) =
    some (.failure, sA.slots) := by decide +kernel
theorem test_load_figure_b_v_rg16 : (nextOf (exec (.loadFigureB 0#8 7 (zeros 0x400)) sB)).map
      (fun t => (t.result, (t.slotAt 0).present, (t.slotAt 0).squeue)) = some (.name [], true, [.added, .present]) := by
  decide +kernel
theorem test_load_figure_b_v_rg15 : faultOf (exec (.loadFigureB 16#8 7 (zeros 0x400)) sB) = some (.slotOutOfRange 16) := by
  decide +kernel
theorem test_remove_figure_a_v_rg6 : (nextOf (exec (.removeFigureA 1#8) (withSlot sA 1 figA))).map
      (fun t => (t.notif, t.orderCounter, (t.slotAt 1).present, t.storeCalls)) =
    some ([reply [0xAB, 4, 0x20, 9, 0, 1, 0xD9]], 1, false, [.close 7]) := by decide +kernel
theorem test_remove_figure_a_v_rg7 :
    (nextOf (exec (.removeFigureA 1#8) (withSlot (State.resetWith { cfgA with orderResetWhenEmpty := true } []) 1 figA))).map
      State.orderCounter = some 0 := by decide +kernel
theorem test_remove_figure_b_v_rg16 : (nextOf (exec (.removeFigureB 0#8) (withSlot sB 0 figFresh))).map
      (fun t => (t.slotAt 0).squeue) = some [.added, .present, .removed, .absent] := by decide +kernel
theorem test_create_figure_v_c14 :
    (nextOf (exec (.createFigure 7 1#16) sA)).map
        (fun t => (t.result, (assocGet t.storage 7).map fun b => (b.length, b.take 7))) =
      some (.success, some (0x140, hx [0x04, 0x11, 0x22, 0x33, 0x44, 0x55, 0x66])) := by decide +kernel
theorem test_create_figure_v_rg12 : (nextOf (exec (.createFigure 7 2#16) sA)).map (fun t => (t.result, t.storeCalls)) =
    some (.failure, []) := by decide +kernel
theorem test_create_figure_b_v_rg13 : faultOf (exec (.createFigureB 7 1#16) sB) = some (.refused .createFigureFamilyB) := by
  decide +kernel
theorem test_control_transfer_v_a24 : resultOf (exec (.controlTransfer (hx [0xFF, 2, 0x82, 1, 0x84])) sA) = some .noResponse := by
  decide +kernel
theorem test_interrupt_poll_v_b24 :
    (nextOf (exec (.interruptPoll []) { sB with slots := List.replicate 16 figB, counter := 0xFF#8, activated := true })).map
      (fun t => (t.result, t.counter)) =
    some (.triple (reply [0x53, 0x55, 0x55, 0x55, 0x55, 0xFF, 1]) 32 2, 0#8) := by decide +kernel
theorem test_cancel_transfer_v_t3 : resultOf (exec .cancelTransfer { sA with inFlight := true }) = some .busy ∧
    resultOf (exec .cancelTransfer sA) = some .success := by decide +kernel
theorem test_bulk_transfer_v_t1 : faultOf (exec (.bulkTransfer (hx [0xFF, 2, 0x80, 1, 0x82])) sA) =
    some (.refused .transferKind) := by decide +kernel
theorem test_isochronous_transfer_v_t2 : faultOf (exec (.isochronousTransfer []) sA) = some (.refused .transferKind) := by
  decide +kernel

/-! ## Witnesses: values that meet the hypotheses of each obligation, clause by clause -/

/-- Every transfer, notification and status queue takes one reply more, and no more. -/
def sA1 : State := capped 1 sA
def sB1 : State := capped 1 sB

theorem test_canReply_at_capacity : CanReply sA1 ∧ CanReply sB1 ∧ CanReply sA := by unfold CanReply; decide
/-- The transfer queue is full. -/
def sAFull : State := { capped 1 sSeeded with tq := [zeros 32] }
def sBFull : State := { sB1 with tq := [zeros 32] }
theorem test_cannotReply_when_full : ¬ CanReply sAFull ∧ ¬ CanReply sBFull := by unfold CanReply; decide

theorem witness_DecodeOfEncode :
    WellFormed cfgA (.aBlank90 0xFF#8 ⟨zeros 253, 0#8, []⟩) = true ∧
    WellFormed cfgA (.loadFigureA 4#8 (2 ^ 32 - 1) []) = true ∧ WellFormed cfgB (.bWriteBlock 0xFF#8 63#8 upTo16) = true := by
  decide +kernel
theorem witness_EncodeOfDecode :
    decode cfgA ⟨.dispatcher, hx [0xFF, 2, 0x80, 1, 0x82]⟩ = .ok (.aActivate 1#8 (chk 0x82)) ∧
    decode cfgB ⟨.host, hx [0x41]⟩ = .ok (.interruptPoll []) := ⟨rfl, rfl⟩
theorem witness_SampleWordsDecode :
    (cfgA.aVerifyChecksum = false ∧ cfgA.lengthsB = ⟨2, 4, 7, 5, 3, 2, 1, 4, 19⟩ ∧ cfgA.family = .a) ∧
    cfgB.aVerifyChecksum = false ∧ cfgB.lengthsB = ⟨2, 4, 7, 5, 3, 2, 1, 4, 19⟩ ∧ cfgB.family = .b := by decide
theorem witness_IgnoredPayloadsA_notFramed :
    sA.cfg.family = .a ∧ ¬ WellFramed sA.cfg [] ∧ ¬ WellFramed sA.cfg (hx [0xFF, 2, 0x80, 1]) := by
  unfold WellFramed; decide
theorem witness_IgnoredPayloadsA_short :
    minL ((hx [0xFF, 3, 0xA2, 1, 0, 0]).getD 2 0#8) = some 4 ∧ ((hx [0xFF, 3, 0xA2, 1, 0, 0]).getD 1 0#8).toNat < 4 := by
  decide
theorem witness_IgnoredPayloadsA_unknown :
    WellFramed sA.cfg (hx [0xFF, 2, 0x82, 1, 0x84]) ∧ (hx [0xFF, 2, 0x82, 1, 0x84]).getD 2 0#8 ∉ commandsA := by
  unfold WellFramed; decide
theorem witness_IgnoredPayloadsB :
    sB.cfg.family = .b ∧ lenB sB.cfg ((hx [0x61, 1]).getD 0 0#8) = none ∧ lenB sB.cfg ((hx [0x41]).getD 0 0#8) = some 2 ∧
    (hx [0x41]).length ≠ 2 ∧ (hx [0x41, 1, 0]).length ≠ 2 := by decide
/-- A waiting poll. -/
def pollRequest : Request := plainRequest ⟨.host, hx [0x41]⟩
theorem witness_StepRunsTheDecodedInstruction :
    (sA.withRequest pollRequest).inbox = pollRequest :: [] ∧
    decode (sA.withRequest pollRequest).cfg pollRequest.code = .ok (.interruptPoll []) ∧ sA.inbox = [] :=
  ⟨rfl, rfl, rfl⟩
theorem witness_ControlTransferRunsTheCommand :
    decodeCommand sA.cfg (hx [0xFF, 2, 0x80, 1, 0x82]) = .ok (.aActivate 1#8 (chk 0x82)) ∧
    decodeCommand sB.cfg (hx [0x53]) = .ok .bStatus := ⟨rfl, rfl⟩
theorem witness_ControlTransferActivates :
    (CanReply sA1 ∧ 32 ≤ sA1.cfg.reportLen ∧ WellFormed sA1.cfg (.aActivate 0xFF#8 ⟨zeros 253, 0#8, [1#8]⟩) = true) ∧
    (CanReply sB1 ∧ 32 ≤ sB1.cfg.reportLen ∧ sB1.cfg.family = .b ∧
      2 + ([] : Bytes).length = sB1.cfg.lengthsB.activate) ∧
    CanReply (State.resetWith cfgB3 []) ∧ 2 + (hx [9]).length = (State.resetWith cfgB3 []).cfg.lengthsB.activate := by
  unfold CanReply; decide +kernel
theorem witness_FamilyAEcho :
    sA.cfg.family = .a ∧ runs (.controlTransfer (hx [0xFF, 2, 0x80, 1, 0x82, 0xEE])) sA = true ∧
    runs (.controlTransfer []) sA = true := by decide +kernel
theorem witness_OneTransferOneStep :
    runs (.controlTransfer []) sA = true ∧ runs (.controlTransfer (hx [0xFF, 2, 0x80, 1, 0x82])) sA1 = true ∧
    runs (.controlTransfer (hx [0x53])) sB = true ∧ runs (.interruptPoll []) sA = true ∧
    runs (.interruptPoll []) sQueues = true ∧ runs (.interruptPoll []) { sQueues with tq := [] } = true := by decide +kernel
theorem witness_CancelTransfer : ({ sA with inFlight := true } : State).inFlight = true ∧ sA.inFlight = false := by decide
theorem witness_ReplyLayoutsAndBlankCommands :
    4 + (rep 28 0xFF).length ≤ cfgA.reportLen ∧ sA1.cfg.family = .a ∧ CanReply sA1 ∧ 32 ≤ sA1.cfg.reportLen := by
  unfold CanReply; decide
theorem witness_ActivateAndSeedCommands : sA.cfg.family = .a ∧ CanReply sA ∧ 32 ≤ sA.cfg.reportLen := by
  unfold CanReply; decide
theorem witness_NextRandomCommand :
    (sSeeded.cfg.family = .a ∧ sSeeded.prng.seeded = true ∧ CanReply sSeeded ∧ 32 ≤ sSeeded.cfg.reportLen ∧
      popcount64 sSeeded.cfg.scrambleMask = 32) ∧ sA.cfg.family = .a ∧ sA.prng.seeded = false := by unfold CanReply; decide
theorem witness_PresentFigures : sA0.cfg.family = .a ∧ CanReply sA0 := by unfold CanReply; decide
/-- Slots are named by their order-added. -/
def byOrder (s : State) : State := { s with cfg := { s.cfg with aSelector := .orderAdded } }
theorem witness_SlotResolution :
    (sA.cfg.aSelector = .slotIndex ∧ (4#8).toNat < sA.cfg.nSlotsA ∧ sA.cfg.nSlotsA ≤ (5#8).toNat) ∧
    (byOrder sA0).cfg.aSelector = .orderAdded ∧
    ((0xFF#8).toNat % 16 < sB.cfg.nSlotsB ∧ ({ cfgB with nSlotsB := 15 } : Params).nSlotsB ≤ (0xFF#8).toNat % 16) := by
  decide
theorem witness_BlockAddressing :
    ((0#8).toNat = 0 ∧ 0x20 ≤ ({ cfgA with bufLenA := 0x20 } : Params).bufLenA) ∧
    (0 < (4#8).toNat ∧ (4#8).toNat < 5 ∧ 16 * (4 * (4#8).toNat) + 16 ≤ ({ cfgA with bufLenA := 0x110 } : Params).bufLenA) ∧
    5 ≤ (5#8).toNat ∧
    ((4#8).toNat < 5 ∧ ({ cfgA with bufLenA := 0x10F } : Params).bufLenA < blockOffsetA 4#8 + 16) ∧
    ((0#8).toNat < 5 ∧ ({ cfgA with bufLenA := 0x1F } : Params).bufLenA < blockOffsetA 0#8 + 16) ∧
    ((63#8).toNat < 64 ∧ 16 * (63#8).toNat + 16 ≤ cfgB.bufLenB) ∧ 64 ≤ (64#8).toNat ∧
    ((63#8).toNat < 64 ∧ ({ cfgB with bufLenB := 0x3FF } : Params).bufLenB < 16 * (63#8).toNat + 16) := by decide
theorem witness_QueryBlockFamilyA :
    (sA0.cfg.family = .a ∧ resolveA sA0 0#8 = .ok (some 0) ∧ (4#8).toNat ≤ 4 ∧
      blockOffsetA 4#8 + 16 ≤ sA0.cfg.bufLenA ∧ (sA0.slotAt 0).present = true ∧ CanReply sA0) ∧
    (resolveA sA0 4#8 = .ok (some 4) ∧ (sA0.slotAt 4).present = false) ∧
    (byOrder sA0).cfg.family = .a ∧ resolveA (byOrder sA0) 0xFF#8 = .ok none :=
  ⟨⟨rfl, rfl, by decide, by decide, rfl, rfl⟩, ⟨rfl, rfl⟩, rfl, rfl⟩
theorem witness_WriteBlockFamilyA :
    (sA0.cfg.family = .a ∧ (4#8).toNat ≤ 4 ∧ blockOffsetA 4#8 + 16 ≤ sA0.cfg.bufLenA ∧
      resolveA sA0 0#8 = .ok (some 0) ∧ HasHandle sA0 0 ∧ CanReply sA0) ∧
    (resolveA sA0 4#8 = .ok (some 4) ∧ HasHandle sA0 4) ∧ (byOrder sA0).cfg.family = .a ∧
    resolveA (byOrder sA0) 1#8 = .ok none :=
  ⟨⟨rfl, by decide, by decide, rfl, fun _ => rfl, rfl⟩, ⟨rfl, fun h => h⟩, rfl, rfl⟩
theorem witness_FigureIdentifier :
    (sA0.cfg.family = .a ∧ resolveA sA0 0#8 = .ok (some 0) ∧ (sA0.slotAt 0).present = true ∧ CanReply sA0) ∧
    (resolveA sA0 1#8 = .ok (some 1) ∧ (sA0.slotAt 1).present = false) ∧ resolveA (byOrder sA0) 1#8 = .ok none :=
  ⟨⟨rfl, rfl, rfl, rfl⟩, ⟨rfl, rfl⟩, rfl⟩
/-- A Family B instance of 15 slots. -/
def sB15 : State := State.resetWith { cfgB with nSlotsB := 15 } []
theorem witness_SlotCheckedBeforeBlock :
    (sA.cfg.family = .a ∧ sA.cfg.aSelector = .slotIndex ∧ sA.cfg.nSlotsA ≤ (5#8).toNat) ∧
    ((sA.cfg.aSelector = .slotIndex → (4#8).toNat < sA.cfg.nSlotsA) ∧ 5 ≤ (5#8).toNat) ∧
    ((byOrder sA).cfg.family = .a ∧
      ((byOrder sA).cfg.aSelector = .slotIndex → (0xFF#8).toNat < (byOrder sA).cfg.nSlotsA)) ∧ (sB15.cfg.family = .b ∧ sB15.cfg.nSlotsB ≤ (0xFF#8).toNat % 16) ∧
    ((0xFE#8).toNat % 16 < sB15.cfg.nSlotsB ∧ 64 ≤ (64#8).toNat) ∧ (sB.cfg.family = .b ∧ sB.cfg.nSlotsB ≤ (16#8).toNat) ∧
    (15#8).toNat < sB.cfg.nSlotsB := by decide
theorem test_unit_calls_check_the_block :
    faultOf (exec (.queryBlockA 0xFF#8 5#8 0#8) (byOrder sA)) = some (.blockOutOfRange 5) ∧
    faultOf (exec (.writeBlockB 15#8 64#8 upTo16) sB) = some (.blockOutOfRange 64) := by decide +kernel
theorem test_slotsShaped_examples : SlotsShaped sA0 ∧ SlotsShaped sB2 ∧ SlotsShaped sA :=
  ⟨⟨rfl, by decide +kernel⟩, ⟨rfl, by decide +kernel⟩, ⟨rfl, by decide +kernel⟩⟩
theorem witness_BlockWriteFrame_a :
    SlotsShaped sA0 ∧ (rep 16 0x22).length = 16 ∧ resolveA sA0 0#8 = .ok (some 0) ∧ offA sA0.cfg 4#8 = .ok 0x100 ∧
    runs (.aWriteBlock 6#8 0#8 4#8 (rep 16 0x22) (chk 0)) sA0 = true ∧
    runs (.writeBlockA 0#8 4#8 (rep 16 0x22) 6#8) sA0 = true ∧
    ¬ ((some 0 : Option Nat) = some 0 ∧ 0x100 ≤ 0xFF ∧ 0xFF < 0x100 + 16) :=
  ⟨test_slotsShaped_examples.1, rfl, rfl, rfl, by decide +kernel, by decide +kernel, by decide⟩
theorem witness_BlockWriteFrame_b :
    SlotsShaped sB2 ∧ (rep 16 0x22).length = 16 ∧ resolveB sB2 0xF2#8 = .ok 2 ∧ offB sB2.cfg 63#8 = .ok 0x3F0 ∧
    runs (.bWriteBlock 0xF2#8 63#8 (rep 16 0x22)) sB2 = true ∧ runs (.writeBlockB 2#8 63#8 (rep 16 0x22)) sB2 = true :=
  ⟨test_slotsShaped_examples.2.1, rfl, rfl, rfl, by decide +kernel, by decide +kernel⟩
theorem witness_WriteThenQuery_a :
    SlotsShaped sA0 ∧ upTo16.length = 16 ∧ 0 < sA0.slots.length ∧ (sA0.slotAt 0).present = true ∧
    (sA0.slotAt 0).handle = some 7 ∧ sA0.storeAnswer = true ∧ resolveA sA0 0#8 = .ok (some 0) ∧
    (nextOf (exec (.aWriteBlock 6#8 0#8 4#8 upTo16 (chk 0)) sA0)).map (fun u => hasRoom u.cfg u.tq.length 1) = some true :=
  ⟨test_slotsShaped_examples.1, by decide, by decide, rfl, rfl, rfl, rfl, by decide +kernel⟩
theorem witness_WriteThenQuery_b :
    SlotsShaped sB2 ∧ 2 < sB2.slots.length ∧ (sB2.slotAt 2).present = true ∧ (sB2.slotAt 2).handle = some 7 ∧
    sB2.storeAnswer = true ∧ (0xF2#8).toNat % 16 = 2 ∧ (0x02#8).toNat % 16 = 2 ∧
    (nextOf (exec (.bWriteBlock 0xF2#8 63#8 upTo16) sB2)).map (fun u => hasRoom u.cfg u.tq.length 1) = some true :=
  ⟨test_slotsShaped_examples.2.1, by decide, rfl, rfl, rfl, by decide, by decide, by decide +kernel⟩
theorem witness_ActivateCommandB_LedCommands_ReadyStatusVersion :
    sB1.cfg.family = .b ∧ CanReply sB1 ∧ 32 ≤ sB1.cfg.reportLen ∧ (1#8 : Byte) ≠ 0#8 := by unfold CanReply; decide
theorem witness_QueryBlockFamilyB :
    sB2.cfg.family = .b ∧ (63#8).toNat < 64 ∧ 16 * (63#8).toNat + 16 ≤ sB2.cfg.bufLenB ∧ 32 ≤ sB2.cfg.reportLen ∧
    (0xFF#8).toNat % 16 = 15 ∧ 15 < sB2.cfg.nSlotsB ∧ CanReply sB2 ∧
    (15#8).toNat = 15 ∧ (sB2.slotAt 2).present = true ∧ (sB2.slotAt 15).present = false := by unfold CanReply; decide
theorem witness_WriteBlockFamilyB :
    sB2.cfg.family = .b ∧ (63#8).toNat < 64 ∧ 16 * (63#8).toNat + 16 ≤ sB2.cfg.bufLenB ∧ 32 ≤ sB2.cfg.reportLen ∧
    HasHandle sB2 2 ∧ HasHandle sB2 15 ∧ CanReply sB2 :=
  ⟨rfl, by decide, by decide, by decide, fun _ => rfl, fun h => h, rfl⟩
theorem witness_PollFamilyA :
    (sQueues.cfg.family = .a ∧ sQueues.tq = reply [1] :: []) ∧
    (({ sQueues with tq := [] } : State).tq = [] ∧ sQueues.notif = reply [2] :: []) ∧ sA.tq = [] ∧ sA.notif = [] ∧
    32 ≤ sA.cfg.reportLen := ⟨⟨rfl, rfl⟩, ⟨rfl, rfl⟩, rfl, rfl, by decide⟩
/-- A Family B instance with a reply waiting. -/
def sReply : State := { sB with tq := [reply [5]] }
theorem witness_PollFamilyB :
    sB.cfg.family = .b ∧ 32 < (rep 33 0).length ∧ (rep 32 0).length ≤ 32 ∧ sReply.tq ≠ [] ∧ sB.tq = [] := by
  decide +kernel
theorem witness_AudioEchoAndQueuedReply :
    sReply.cfg.family = .b ∧ 32 < (rep 33 0).length ∧ (rep 32 0).length ≤ 32 ∧ sReply.tq = reply [5] :: [] ∧
    (reply [5]).length = sReply.cfg.reportLen := ⟨rfl, by decide +kernel, by decide +kernel, rfl, by decide +kernel⟩
theorem witness_StatusFrame : sB2.cfg.family = .b ∧ (rep 32 0).length ≤ 32 ∧ sB2.tq = [] ∧
    32 ≤ sB2.cfg.reportLen := by decide +kernel
theorem witness_StatusPacking : (List.replicate 16 figB).length ≤ 16 ∧ 0 < (List.replicate 16 figB).length ∧
    2 * (List.replicate 15 figB).length ≤ 30 := by decide
theorem witness_DeriveKey : sA.cfg.kdfConst = Vector.replicate 31 0#8 ∧ sA.cfg.hashAlgorithm = .sha1 := ⟨rfl, rfl⟩
theorem witness_BlockCipher : keyC11.length = 16 ∧ plainC11.length = 16 ∧ sA.cfg.cipherAlgorithm = .aes128 := by decide
theorem witness_PrngCalls : sA.cfg.prngA0 ≠ 0#32 ∧ sSeeded.prng.seeded = true ∧ sA.prng.seeded = false := by decide
theorem witness_ScrambleClosedForm :
    0 < 64 ∧ sA.cfg.scrambleMask.getLsbD 1 = true ∧ maskRank sA.cfg.scrambleMask true 1 = 0 ∧
    sA.cfg.scrambleMask.getLsbD 63 = true ∧ maskRank sA.cfg.scrambleMask true 63 = 31 ∧
    sA.cfg.scrambleMask.getLsbD 0 = false := by decide
theorem witness_ScrambleInverse : popcount64 cfgA.scrambleMask = 32 ∧ cfgA.scrambleMask.getLsbD 62 = false := by decide
theorem witness_ActivationCalls : sA.cfg.family = .a ∧ sB.cfg.family = .b := by decide
/-- The last order-added is still free. -/
def sLastOrder : State := capped 1 { sA with orderCounter := 0xFF }
/-- No order-added is left. -/
def sNoOrder : State := { sA with orderCounter := 0x100 }
theorem witness_LoadFigureFamilyA :
    sLastOrder.cfg.family = .a ∧ (4#8).toNat < sLastOrder.cfg.nSlotsA ∧ (4#8).toNat < sLastOrder.slots.length ∧
    (zeros 0x140).length = sLastOrder.cfg.bufLenA ∧ OrderFree sLastOrder (4#8).toNat ∧
    hasRoom sLastOrder.cfg sLastOrder.notif.length 1 = true := by unfold OrderFree; decide +kernel
theorem witness_LoadFigureFamilyB :
    (capped 2 sB).cfg.family = .b ∧ (15#8).toNat < (capped 2 sB).cfg.nSlotsB ∧ (15#8).toNat < (capped 2 sB).slots.length ∧
    (zeros 0x400).length = sB.cfg.bufLenB ∧
    hasRoom (capped 2 sB).cfg ((capped 2 sB).slotAt (15#8).toNat).squeue.length 2 = true := by decide +kernel
theorem witness_ManagementChecks_slots :
    (sA.cfg.family = .a ∧ sA.cfg.nSlotsA ≤ (5#8).toNat) ∧ (sB.cfg.family = .b ∧ sB.cfg.nSlotsB ≤ (16#8).toNat) ∧
    ((4#8).toNat < sA.cfg.nSlotsA ∧ (zeros 0x13F).length ≠ sA.cfg.bufLenA) ∧
    ((15#8).toNat < sB.cfg.nSlotsB ∧ (zeros 0x401).length ≠ sB.cfg.bufLenB) := by decide +kernel
theorem witness_ManagementChecks_order :
    sNoOrder.cfg.family = .a ∧ (4#8).toNat < sNoOrder.cfg.nSlotsA ∧ (4#8).toNat < sNoOrder.slots.length ∧
    (zeros 0x140).length = sA.cfg.bufLenA ∧ ¬ OrderFree sNoOrder (4#8).toNat := by unfold OrderFree; decide +kernel
theorem witness_ManagementChecks_notif :
    (capped 0 sA0).cfg.family = .a ∧ (0#8).toNat < (capped 0 sA0).cfg.nSlotsA ∧
    hasRoom (capped 0 sA0).cfg (capped 0 sA0).notif.length 1 = false ∧ (zeros 0x140).length = sA.cfg.bufLenA ∧
    OrderFree (capped 0 sA0) (0#8).toNat ∧ (0#8).toNat < (capped 0 sA0).slots.length ∧
    ((capped 0 sA0).slotAt (0#8).toNat).present = true := by unfold OrderFree; decide +kernel
theorem witness_ManagementChecks_squeue :
    (capped 1 sB2).cfg.family = .b ∧ (2#8).toNat < (capped 1 sB2).cfg.nSlotsB ∧ (2#8).toNat < (capped 1 sB2).slots.length ∧
    hasRoom (capped 1 sB2).cfg ((capped 1 sB2).slotAt (2#8).toNat).squeue.length 2 = false ∧
    (zeros 0x400).length = sB.cfg.bufLenB ∧ ((capped 1 sB2).slotAt (2#8).toNat).present = true := by decide +kernel
theorem witness_ManagementChecks_tq :
    sAFull.cfg.family = .a ∧ sBFull.cfg.family = .b ∧ ¬ CanReply sAFull ∧ ¬ CanReply sBFull ∧ sAFull.prng.seeded = true ∧
    (sAFull.cfg.aSelector = .slotIndex → (4#8).toNat < sAFull.cfg.nSlotsA) ∧
    ((4#8).toNat < 5 ∧ blockOffsetA 4#8 + 16 ≤ sAFull.cfg.bufLenA) ∧
    (0xFF#8).toNat % 16 < sBFull.cfg.nSlotsB ∧ (63#8).toNat < 64 ∧ 16 * (63#8).toNat + 16 ≤ sBFull.cfg.bufLenB :=
  ⟨rfl, rfl, test_cannotReply_when_full.1, test_cannotReply_when_full.2, rfl, by decide⟩
theorem witness_RemoveFigure_a :
    sA0.cfg.family = .a ∧ ((4#8).toNat < sA0.cfg.nSlotsA ∧ (sA0.slotAt (4#8).toNat).present = false) ∧
    ((0#8).toNat < sA0.cfg.nSlotsA ∧ (sA0.slotAt (0#8).toNat).present = true ∧
      hasRoom sA0.cfg sA0.notif.length 1 = true) := by decide
theorem witness_RemoveFigure_a_reset :
    ({ cfgA with orderResetWhenEmpty := true } : Params).orderResetWhenEmpty = true ∧
    (∀ j, j < sA0.slots.length → j ≠ (0#8).toNat → (sA0.slotAt j).present = false) ∧
    ¬ (sA0.cfg.orderResetWhenEmpty = true) := by decide
theorem witness_RemoveFigure_b :
    (capped 2 sB2).cfg.family = .b ∧
    ((15#8).toNat < (capped 2 sB2).cfg.nSlotsB ∧ ((capped 2 sB2).slotAt (15#8).toNat).present = false) ∧
    ((2#8).toNat < (capped 2 sB2).cfg.nSlotsB ∧ ((capped 2 sB2).slotAt (2#8).toNat).present = true ∧
      hasRoom (capped 2 sB2).cfg ((capped 2 sB2).slotAt (2#8).toNat).squeue.length 2 = true) := by decide
theorem witness_CreateFigureResult :
    sA.cfg.family = .a ∧ (∀ e ∈ sA.cfg.catalog, e.numericId ≠ 2#16) ∧ (sA.cfg.catalog.find? fun e => e.numericId == 1#16) = some entryX ∧
    sA.cfg.metaLayout.wf = true ∧ sA.storeAnswer = true ∧ ({ sA with storeAnswer := false } : State).storeAnswer = false := by decide
theorem witness_CreateThenLoad :
    sLastOrder.cfg.family = .a ∧ sLastOrder.cfg.uidOffset = 0 ∧ sLastOrder.cfg.metaOffset = 0x10 ∧
    sLastOrder.cfg.metaLayout = ⟨0, 1, 3, 12⟩ ∧ 0x20 ≤ sLastOrder.cfg.bufLenA ∧ (∀ m ∈ sLastOrder.cfg.markers, 0x20 ≤ m.1) ∧
    entryById sLastOrder.cfg.catalog 1#16 = some entryX ∧ sLastOrder.storeAnswer = true ∧
    runs (.createFigure 7 1#16) sLastOrder = true ∧ (4#8).toNat < sLastOrder.cfg.nSlotsA ∧
    OrderFree sLastOrder (4#8).toNat ∧ hasRoom sLastOrder.cfg sLastOrder.notif.length 1 = true := by
  unfold OrderFree; decide +kernel
theorem witness_ResetMeetsTheInvariants :
    cfgA.orderInitial ≤ cfgA.orderMax + 1 ∧ assocWf [(7, zeros 3), (9, zeros 3)] = true ∧ 4 < cfgA.nSlots := by decide

/-- A Family B poll that waits, with a figure in slot 2. -/
def sStepB : State := sB2.withRequest pollRequest
/-- A Family A load that waits: slot 4 of an instance with a figure in slot 0. -/
def sStepA : State := sA0.withRequest (plainRequest ⟨.management, hx [0x30, 4, 0, 0, 0, 8] ++ zeros 0x140⟩)
theorem test_step_examples_run : (nextOf (step sStepB)).isSome = true ∧ (nextOf (step sStepA)).isSome = true := by
  decide +kernel
theorem witness_StepKeepsSlotsShaped : SlotsShaped sStepB ∧ SlotsShaped sStepA :=
  ⟨⟨rfl, by decide +kernel⟩, ⟨rfl, by decide +kernel⟩⟩
theorem witness_StepKeepsQueuesHandlesMaps : QueuesShaped sStepA ∧ HandlesMatch sStepA ∧ MapsCanonical sStepA := by
  unfold QueuesShaped QueueOk HandlesMatch MapsCanonical; decide +kernel
theorem witness_StepKeepsOrdersDistinct :
    sStepA.cfg.orderInitial ≤ sStepA.cfg.orderMax + 1 ∧ OrdersOk sStepA := by
  refine ⟨by decide, fun _ => ⟨by decide +kernel, ?_, ?_, by decide +kernel⟩⟩
  rotate_left
  · have h : ∀ i, i < sStepA.slots.length → (sStepA.slotAt i).present = true → i = 0 := by decide +kernel
    exact fun i j hi hj hne pi pj => absurd ((h i hi pi).trans (h j hj pj).symm) hne
  intro x hx o ho
  have h : ∀ x ∈ sStepA.slots, x.order.all (fun o => decide (o < sStepA.orderCounter)) = true := by decide +kernel
  simpa [ho] using h x hx
theorem witness_StepKeepsStatusTerminal : StatusOk sStepB ∧ sStepB.cfg.family = .b :=
  ⟨fun _ => by unfold terminalStatus; decide +kernel, rfl⟩
theorem witness_ConfigurationIsNotState : runs (.generateSeed 1#32) sA = true ∧ runs (.removeFigureA 0#8) sA0 = true := by
  decide +kernel
theorem witness_HostPortProtection :
    decoded sA0.cfg .host (hx [0x40, 0xFF, 0x14, 0xA3, 6, 0, 3] ++ rep 16 0x11 ++ [0xCF#8]) =
      some (.controlTransfer (hx [0xFF, 0x14, 0xA3, 6, 0, 3] ++ rep 16 0x11 ++ [0xCF#8])) ∧
    runs (.controlTransfer (hx [0xFF, 0x14, 0xA3, 6, 0, 3] ++ rep 16 0x11 ++ [0xCF#8])) sA0 = true ∧
    runs (.interruptPoll []) sA0 = true ∧ runs .cancelTransfer sA0 = true := by decide +kernel
theorem witness_FaultsComeFromTheirRules :
    faultOf (exec .getNext sA) = some .unseededPrng ∧
    faultOf (exec (.aQueryBlock 1#8 0#8 5#8 (chk 0)) sA) = some (.blockOutOfRange 5) ∧
    faultOf (exec (.aFigureId 2#8 5#8 (chk 0xBD)) sA) = some (.slotOutOfRange 5) ∧
    faultOf (exec (.bWriteBlock 0xFF#8 64#8 upTo16) sB) = some (.blockOutOfRange 64) ∧
    faultOf (exec (.bQueryBlock 0xFF#8 0#8) sB15) = some (.slotOutOfRange 15) ∧
    faultOf (exec (.bReady 0#8) sBFull) = some (.queueOverflow .tq) ∧
    faultOf (exec (.removeFigureA 0#8) (capped 0 sA0)) = some (.queueOverflow .notif) ∧
    faultOf (exec (.removeFigureB 2#8) (capped 1 sB2)) = some (.queueOverflow (.squeue 2)) ∧
    faultOf (exec (.loadFigureA 4#8 7 (zeros 0x140)) sNoOrder) = some .orderCounterOverflow := by decide +kernel
theorem witness_PortRequestsAreNeverTurnedAway :
    decode cfgA ⟨.host, hx [0x42]⟩ = .ok .cancelTransfer ∧
    decode cfgB ⟨.management, hx [0x31, 15]⟩ = .ok (.removeFigureB 15#8) := ⟨rfl, rfl⟩

end Sys2Proof.Tests
end

section
/-! PROOF. The scope of the ports (00_scope.md R8, 60_exceptions.md R353): what each port's decoder can give, and
that each of those requests has a meaning on the device's family. `refusalOf` of Safety.lean says whether an outcome is a
refusal. -/

namespace Sys2Proof.Machine

/-! ## Outcomes that are no refusal -/

@[simp] theorem refusalOf_next (s : State) : refusalOf (.next s) = none := rfl

@[simp] theorem refusalOf_raise (f : Fault) : refusalOf (raise f) = none := rfl

theorem ne_refused_of_refusalOf {o : Out} (h : refusalOf o = none) (r : Refusal) : o ≠ .refused r := by
  rintro rfl
  simp [refusalOf] at h

/-- An operation that exists on the device is refused only if its body is (R2). -/
theorem refusalOf_onFamily {f : Family} {s : State} {k : Out} (hf : s.cfg.family = f) (hk : refusalOf k = none) :
    refusalOf (onFamily f s k) = none := by
  rwa [onFamily_eq hf]

theorem refusalOf_ite {c : Prop} [Decidable c] {k l : Out} (hk : refusalOf k = none) (hl : refusalOf l = none) :
    refusalOf (if c then k else l) = none := by
  split
  · exact hk
  · exact hl

/-- A Family A command runs or faults on a Family A device (R260). -/
theorem refusalOf_commandA {s : State} (hf : s.cfg.family = .a) (p : Bytes)
    (run : State → Except Fault (State × Bytes)) : refusalOf (commandA p run s) = none := by
  refine refusalOf_onFamily hf ?_
  split
  · exact refusalOf_raise _
  · split
    · exact refusalOf_raise _
    · exact refusalOf_next _

/-- A Family B command runs or faults on a Family B device (R300). -/
theorem refusalOf_commandB {s : State} (hf : s.cfg.family = .b) (p : Bytes)
    (run : State → Except Fault (State × Option Bytes)) : refusalOf (commandB p run s) = none := by
  refine refusalOf_onFamily hf ?_
  split
  · exact refusalOf_raise _
  · exact refusalOf_next _
  · split
    · exact refusalOf_raise _
    · exact refusalOf_next _

/-! ## What a decoder gives

The command tables of R92 and R97 are chains of `if`; `Yields` says what every row of such a chain gives. -/

/-- Whatever the decoder's answer holds has the property. -/
def Yields (P : Instr → Prop) (x : Except Reject Instr) : Prop := ∀ i, x = .ok i → P i

section
variable {P : Instr → Prop}

theorem Yields.error (e : Reject) : Yields P (.error e) := fun _ h => by cases h

theorem Yields.ok {i : Instr} (hi : P i) : Yields P (.ok i) := fun _ h => by
  cases h
  exact hi

theorem Yields.ite {c : Prop} [Decidable c] {x y : Except Reject Instr} (hx : Yields P x) (hy : Yields P y) :
    Yields P (if c then x else y) := by
  split
  · exact hx
  · exact hy

theorem Yields.withOperands {f : FrameParts} {n : Nat} {mk : Bytes → FrameTail → Instr} (h : ∀ d t, P (mk d t)) :
    Yields P (withOperands f n mk) := .ite (.error _) (.ok (h _ _))

theorem Yields.needOperands {n : Nat} {d : Bytes} {i : Instr} (hi : P i) : Yields P (needOperands n d i) :=
  .ite (.ok hi) (.error _)

theorem Yields.exactly {n : Nat} {d : Bytes} {i : Instr} (hi : P i) : Yields P (exactly n d i) :=
  .ite (.ok hi) (.error _)

theorem Yields.atLeast {n : Nat} {d : Bytes} {i : Instr} (hi : P i) : Yields P (atLeast n d i) :=
  .ite (.ok hi) (.error _)

end

/-! ## Control payloads -/

/-- The dispatcher runs the instruction as a Family A control transfer. -/
def RunsAsCommandA (i : Instr) : Prop := ∃ p run, ∀ s, runCommand i s = commandA p run s

/-- The dispatcher runs the instruction as a Family B control transfer. -/
def RunsAsCommandB (i : Instr) : Prop := ∃ p run, ∀ s, runCommand i s = commandB p run s

/-- A blank command is a Family A control transfer (R265). -/
theorem RunsAsCommandA.of_blank {i : Instr} {cmd seq : Byte} {t : FrameTail}
    (h : ∀ s, runCommand i s = blankCommand cmd seq t s) : RunsAsCommandA i := ⟨_, _, h⟩

/-- Each of the 15 rows of R92 is a Family A control transfer: three commands, the blank commands 0x90 to 0x96, four
commands, the blank command 0xB5. -/
theorem decodeCommandA_yields (f : FrameParts) : Yields RunsAsCommandA (decodeCommandA f) := by
  unfold decodeCommandA
  iterate 3 refine .ite (.withOperands fun d t => ⟨_, _, fun s => by unfold runCommand; rfl⟩) ?_
  iterate 7 refine .ite (.withOperands fun d t => .of_blank fun s => by unfold runCommand; rfl) ?_
  iterate 4 refine .ite (.withOperands fun d t => ⟨_, _, fun s => by unfold runCommand; rfl⟩) ?_
  refine .ite (.withOperands fun d t => .of_blank fun s => by unfold runCommand; rfl) ?_
  exact .error _

/-- Each of the nine rows of R97 is a Family B control transfer; 'S', the seventh, has no operands. -/
theorem operandsB_yields (ch : Byte) (d : Bytes) : Yields RunsAsCommandB (operandsB ch d) := by
  unfold operandsB
  iterate 6 refine .ite (.needOperands ⟨_, _, fun s => by unfold runCommand; rfl⟩) ?_
  refine .ite (.ok ⟨_, _, fun s => by unfold runCommand; rfl⟩) ?_
  iterate 2 refine .ite (.needOperands ⟨_, _, fun s => by unfold runCommand; rfl⟩) ?_
  exact .error _

theorem decodeCommandB_yields (c : Params) (p : Bytes) : Yields RunsAsCommandB (decodeCommandB c p) := by
  unfold decodeCommandB
  split
  · exact .error _
  · split
    · exact .error _
    · exact .ite (operandsB_yields _ _) (.error _)

/-- The command a control payload holds is one of the device's family (R232). -/
theorem decodeCommand_ok {c : Params} {p : Bytes} {i : Instr} (h : decodeCommand c p = .ok i) :
    (c.family = .a ∧ RunsAsCommandA i) ∨ (c.family = .b ∧ RunsAsCommandB i) := by
  unfold decodeCommand at h
  split at h
  · split at h
    · cases h
    · exact .inl ⟨‹_›, decodeCommandA_yields _ i h⟩
  · exact .inr ⟨‹_›, decodeCommandB_yields c p i h⟩

/-- A control transfer is ignored, or runs or faults as its command does (R232). -/
theorem refusalOf_execControlTransfer (p : Bytes) (s : State) : refusalOf (execControlTransfer p s) = none := by
  unfold execControlTransfer
  split
  · exact refusalOf_next _
  · rename_i i hd
    obtain ⟨hf, q, run, hrun⟩ | ⟨hf, q, run, hrun⟩ := decodeCommand_ok hd
    · rw [hrun]
      exact refusalOf_commandA hf q run
    · rw [hrun]
      exact refusalOf_commandB hf q run

/-- A poll of the device's family always answers (R233). -/
theorem refusalOf_execInterruptPoll (p : Bytes) (s : State) : refusalOf (execInterruptPoll p s) = none := by
  unfold execInterruptPoll
  split
  · exact refusalOf_next _
  · exact refusalOf_next _

/-! ## Management requests -/

theorem refusalOf_execLoadFigureA {s : State} (hf : s.cfg.family = .a) (slot : Byte) (h : Nat) (blob : Bytes) :
    refusalOf (execLoadFigureA slot h blob s) = none := by
  refine refusalOf_onFamily hf (refusalOf_ite (refusalOf_raise _) (refusalOf_ite (refusalOf_next _) ?_))
  split
  · exact refusalOf_raise _
  · exact refusalOf_next _

theorem refusalOf_execLoadFigureB {s : State} (hf : s.cfg.family = .b) (slot : Byte) (h : Nat) (blob : Bytes) :
    refusalOf (execLoadFigureB slot h blob s) = none := by
  refine refusalOf_onFamily hf (refusalOf_ite (refusalOf_raise _) (refusalOf_ite (refusalOf_next _) ?_))
  split
  · exact refusalOf_raise _
  · exact refusalOf_next _

theorem refusalOf_execRemoveFigureA {s : State} (hf : s.cfg.family = .a) (slot : Byte) :
    refusalOf (execRemoveFigureA slot s) = none := by
  refine refusalOf_onFamily hf (refusalOf_ite (refusalOf_raise _) (refusalOf_ite ?_ (refusalOf_next _)))
  split
  · exact refusalOf_raise _
  · exact refusalOf_next _

theorem refusalOf_execRemoveFigureB {s : State} (hf : s.cfg.family = .b) (slot : Byte) :
    refusalOf (execRemoveFigureB slot s) = none := by
  refine refusalOf_onFamily hf (refusalOf_ite (refusalOf_raise _) (refusalOf_ite ?_ (refusalOf_next _)))
  split
  · exact refusalOf_raise _
  · exact refusalOf_next _

/-! ## The two ports -/

/-- Bytes that decode at a port start with an op code of that port (R101). -/
theorem decode_port_ok {c : Params} {e : Entry} {bytes : Bytes} {i : Instr} (he : e ≠ .dispatcher)
    (h : decode c ⟨e, bytes⟩ = .ok i) : ∃ op d, bytes = op :: d ∧ decodePort c e op d = .ok i := by
  rw [decode, if_neg he] at h
  cases bytes with
  | nil => cases h
  | cons op d => exact ⟨op, d, rfl, h⟩

/-- Every request of the host transfer port has a meaning on either family (R230, R353). -/
theorem decodeHost_yields (op : Byte) (d : Bytes) (s : State) :
    Yields (fun i => refusalOf (exec i s) = none) (decodeHost op d) :=
  .ite (.ok (refusalOf_execControlTransfer d s)) <|
  .ite (.ok (refusalOf_execInterruptPoll d s)) <|
  .ite (.exactly (refusalOf_next _)) <|
  .ite (.ok (refusalOf_raise _)) <|
  .ite (.ok (refusalOf_raise _)) (.error _)

/-- Every request that the management port can issue exists on the device's family (R2, R353). -/
theorem decodeManagement_yields (op : Byte) (d : Bytes) (s : State) :
    Yields (fun i => refusalOf (exec i s) = none) (decodeManagement s.cfg op d) := by
  unfold decodeManagement
  cases hf : s.cfg.family with
  | a =>
    exact .ite (.atLeast (refusalOf_execLoadFigureA hf _ _ _)) <|
      .ite (.exactly (refusalOf_execRemoveFigureA hf _)) <|
      .ite (.exactly (refusalOf_onFamily hf (refusalOf_next _))) (.error _)
  | b =>
    exact .ite (.atLeast (refusalOf_execLoadFigureB hf _ _ _)) <|
      .ite (.exactly (refusalOf_execRemoveFigureB hf _)) <|
      .ite (.exactly (refusalOf_raise _)) (.error _)

/-- Settles O59: each port's decoder gives only operations that exist on the device, and those run or fault. -/
theorem portRequestsAreNeverTurnedAway : Obligations.PortRequestsAreNeverTurnedAway := by
  intro e bytes i s r he hd
  apply ne_refused_of_refusalOf
  obtain rfl | rfl := he
  · obtain ⟨op, d, -, h⟩ := decode_port_ok (by decide) hd
    exact decodeHost_yields op d s i h
  · obtain ⟨op, d, -, h⟩ := decode_port_ok (by decide) hd
    exact decodeManagement_yields op d s i h

end Sys2Proof.Machine
end

section
/-! PROOF. The kinds of change an instruction makes to the state (10_state.md R21, R22): every instruction that answers a
state reaches it by a sequence of `Effect`s, each of which touches one part of the state. The invariants of R45 to R47 are
proved against these effects, once each, and not against the 62 instructions. -/

namespace Sys2Proof.Machine

/-! ## The kinds of change -/

/-- What happens to a queue of buffers (10_state.md R30, R38): a push of a full buffer where there is room, or a pop. -/
inductive QueueChange (c : Params) : List Bytes → List Bytes → Prop
  | push {q : List Bytes} {e : Bytes} (hl : e.length = c.reportLen) (hr : hasRoom c q.length 1 = true) :
    QueueChange c q (q ++ [e])
  | pop {e : Bytes} {q : List Bytes} : QueueChange c (e :: q) q

/-- What happens to a map of byte strings, the LED zones or the storage record (logs 10, 23). -/
inductive MapChange : List (Nat × Bytes) → List (Nat × Bytes) → Prop
  | put {m : List (Nat × Bytes)} (k : Nat) (v : Bytes) : MapChange m (assocPut m k v)
  | erase {m : List (Nat × Bytes)} (k : Nat) : MapChange m (assocErase m k)

/-- What happens to one slot `x` while the order counter goes from `k` to the last argument: a block write (R192), a status
poll (R322), a deactivation (R187), a load (R196, R197) or a removal (R199, R200). Where `full` holds, a block has 16
bytes. -/
inductive SlotChange (full : Prop) (c : Params) (x : Slot) (k : Nat) : Slot → Nat → Prop
  | block {off : Nat} {v : Bytes} (hv : full → v.length = 16) (ho : off + 16 ≤ c.bufLen) :
    SlotChange full c x k { x with data := x.data.write off v } k
  | advanced : SlotChange full c x k (advanceSlot x) k
  | collapsed : SlotChange full c x k (collapseSlot x) k
  | reloadedA {blob : Bytes} {h : Nat} (hf : c.family = .a) (hb : blob.length = c.bufLen)
      (ho : x.order.isSome = true) : SlotChange full c x k (loadedSlot x blob h) k
  | loadedA {blob : Bytes} {h : Nat} (hf : c.family = .a) (hb : blob.length = c.bufLen) (hk : k ≤ c.orderMax) :
    SlotChange full c x k { loadedSlot x blob h with order := some k } (k + 1)
  | loadedB {blob : Bytes} {h : Nat} (hf : c.family = .b) (hb : blob.length = c.bufLen)
      (hr : hasRoom c x.squeue.length 2 = true) :
    SlotChange full c x k { loadedSlot x blob h with squeue := x.squeue ++ [.added, .present] } k
  | removedA (hf : c.family = .a) :
    SlotChange full c x k { x with present := false, handle := none, order := none } k
  | removedB (hf : c.family = .b) (hr : hasRoom c x.squeue.length 2 = true) :
    SlotChange full c x k { x with present := false, handle := none, squeue := x.squeue ++ [.removed, .absent] } k

/-- One change of the state. `outputs` is the change of the parts of which no invariant speaks. -/
inductive Effect (full : Prop) (s : State) : State → Prop
  | outputs {b : Bool} {n : Byte} {p : Prng} {calls : List StoreCall} {r : Result} :
    Effect full s { s with activated := b, counter := n, prng := p, storeCalls := calls, result := r }
  | replies {q : List Bytes} (h : QueueChange s.cfg s.tq q) : Effect full s { s with tq := q }
  | notifies {q : List Bytes} (h : QueueChange s.cfg s.notif q) : Effect full s { s with notif := q }
  | lights {m : List (Nat × Bytes)} (h : MapChange s.led m) : Effect full s { s with led := m }
  | stores {m : List (Nat × Bytes)} (h : MapChange s.storage m) : Effect full s { s with storage := m }
  | slot (i : Nat) {y : Slot} {n : Nat} (h : SlotChange full s.cfg (s.slotAt i) s.orderCounter y n) :
    Effect full s { s.setSlot i y with orderCounter := n }
  | eachSlot {f : Slot → Slot} (h : ∀ x, SlotChange full s.cfg x s.orderCounter (f x) s.orderCounter) :
    Effect full s { s with slots := s.slots.map f }
  | restartsOrder (h : s.allAbsent = true) : Effect full s { s with orderCounter := s.cfg.orderInitial }

/-- A sequence of changes. -/
inductive Effects (full : Prop) (s : State) : State → Prop
  | refl : Effects full s s
  | tail {t u : State} (h : Effects full s t) (he : Effect full t u) : Effects full s u

theorem Effects.single {full : Prop} {s t : State} (h : Effect full s t) : Effects full s t := .tail .refl h

theorem Effects.trans {full : Prop} {s t u : State} (h : Effects full s t) (h' : Effects full t u) : Effects full s u := by
  induction h' with
  | refl => exact h
  | tail _ he ih => exact ih.tail he

/-- What every effect keeps, a sequence of effects keeps. -/
theorem Effects.keeps {full : Prop} {P : State → Prop} (hP : ∀ s t, Effect full s t → P s → P t) {s t : State}
    (h : Effects full s t) (hs : P s) : P t := by
  induction h with
  | refl => exact hs
  | tail _ he ih => exact hP _ _ he ih

/-- The fields no effect writes: the configuration and what comes with a request (10_state.md R22, R39; logs 1, 8, 9). -/
def SameEnvironment (s t : State) : Prop :=
  t.cfg = s.cfg ∧ t.inFlight = s.inFlight ∧ t.inbox = s.inbox ∧ t.garbage = s.garbage ∧ t.storeAnswer = s.storeAnswer

theorem SameEnvironment.refl (s : State) : SameEnvironment s s := ⟨rfl, rfl, rfl, rfl, rfl⟩

theorem Effect.sameEnvironment {full : Prop} {r s t : State} (h : Effect full s t) (hr : SameEnvironment r s) :
    SameEnvironment r t := by
  cases h <;> exact hr

theorem Effects.sameEnvironment {full : Prop} {s t : State} (h : Effects full s t) : SameEnvironment s t :=
  h.keeps (P := SameEnvironment s) (fun _ _ he hs => he.sameEnvironment hs) (.refl s)

theorem Effects.cfg_eq {full : Prop} {s t : State} (h : Effects full s t) : t.cfg = s.cfg := h.sameEnvironment.1

/-! ## Slots, in range or not

Of a slot number past the end every replacement is without effect, so these hold for every number. -/

theorem setSlot_of_length_le {s : State} {i : Nat} (h : s.slots.length ≤ i) (x : Slot) : s.setSlot i x = s := by
  simp only [State.setSlot, List.set_eq_of_length_le h]

theorem slotAt_of_length_le {s : State} {i : Nat} (h : s.slots.length ≤ i) : s.slotAt i = Slot.empty := by
  simp [State.slotAt, List.getD_eq_getElem?_getD, h]

theorem lt_of_slotAt_present {s : State} {i : Nat} (h : (s.slotAt i).present = true) : i < s.slots.length := by
  refine Nat.lt_of_not_le fun hi => ?_
  rw [slotAt_of_length_le hi] at h
  cases h

/-- Changing the slot that was just replaced is replacing it by the changed slot. -/
theorem setSlot_setSlot_map (s : State) (i : Nat) (x : Slot) (f : Slot → Slot) :
    (s.setSlot i x).setSlot i (f ((s.setSlot i x).slotAt i)) = s.setSlot i (f x) := by
  by_cases hi : i < s.slots.length
  · rw [slotAt_setSlot_self hi, setSlot_setSlot]
  · simp only [setSlot_of_length_le (Nat.le_of_not_lt hi)]

/-- What a replacement leaves as it was in a slot reads as it did. -/
theorem slotAt_setSlot_field {β : Type} (f : Slot → β) {s : State} {i : Nat} {x : Slot} (h : f x = f (s.slotAt i)) :
    f ((s.setSlot i x).slotAt i) = f (s.slotAt i) := by
  by_cases hi : i < s.slots.length
  · rw [slotAt_setSlot_self hi, h]
  · rw [setSlot_of_length_le (Nat.le_of_not_lt hi)]

theorem bufLen_of_family_a {c : Params} (h : c.family = .a) : c.bufLen = c.bufLenA := by simp [Params.bufLen, h]

theorem bufLen_of_family_b {c : Params} (h : c.family = .b) : c.bufLen = c.bufLenB := by simp [Params.bufLen, h]

/-! ## The effects of each operation -/

section
variable {full : Prop} {s t : State}

theorem Effects.ends (h : Effects full s t) (r : Result) : Effects full s (t.ends r) := h.tail .outputs

theorem Effects.respond (h : Effects full s t) (b : Bytes) (d : Nat) : Effects full s (t.respond b d) := h.ends _

/-- A reply of REPORT_LEN bytes is queued where there is room, and the payload answered (R234, R260, R300). -/
theorem Effects.replied (h : Effects full s t) {reply : Bytes} (hl : reply.length = s.cfg.reportLen)
    (hr : hasRoom t.cfg t.tq.length 1 = true) (p : Bytes) (d : Nat) : Effects full s (Machine.replied t p reply d) :=
  Effects.respond (h.tail (.replies (.push (h.cfg_eq ▸ hl) hr))) p d

theorem activateOp_effects (s : State) : Effects full s (activateOp s) := .single .outputs

theorem deactivateOp_effects (s : State) : Effects full s (deactivateOp s) := by
  have hflag : Effects full s { s with activated := false } := .single .outputs
  unfold deactivateOp
  split
  · exact hflag
  · exact hflag.tail (.eachSlot fun _ => .collapsed)

theorem generateSeedOp_effects (x : U32) (s : State) : Effects full s (generateSeedOp x s) :=
  .single .outputs

theorem getNextOp_effects {r : U32} (h : getNextOp s = .ok (t, r)) : Effects full s t := by
  obtain ⟨-, rfl, -⟩ := getNextOp_ok.1 h
  exact .single .outputs

theorem setLed_effects (s : State) (ch sel : Byte) (v : Bytes) : Effects full s (setLed s ch sel v) :=
  .single (.lights (.put _ _))

theorem closeHandle_effects (s : State) (h : Option Nat) : Effects full s (closeHandle s h) := by
  cases h with
  | none => exact .refl
  | some h => exact .single .outputs

theorem closeReplaced_effects (s : State) (i : Nat) : Effects full s (closeReplaced s i) := by
  rw [closeReplaced_eq]
  exact .single .outputs

/-- A write-and-persist writes the block or leaves it, and changes the storage record at one handle or not (R192). -/
theorem persisted_effects {i off : Nat} {v : Bytes} (hv : full → v.length = 16) (ho : off + 16 ≤ s.cfg.bufLen) :
    Effects full s (persisted s i off v).1 := by
  obtain ⟨d, st, sc, heq, hd, hst⟩ := persisted_frame s i off v
  have hdata : Effects full s (s.setSlot i { s.slotAt i with data := d }) := by
    obtain rfl | rfl := hd
    · rw [setSlot_slotAt]
      exact .refl
    · exact .single (.slot i (.block hv ho))
  have hstorage : Effects full s { s.setSlot i { s.slotAt i with data := d } with storage := st } := by
    obtain rfl | ⟨h, b, rfl | rfl⟩ := hst
    · exact hdata
    · exact hdata.tail (.stores (.put h b))
    · exact hdata.tail (.stores (.erase h))
  rw [heq]
  exact hstorage.tail .outputs

theorem createFigureOp_effects (s : State) (h : Nat) (id : U16) : Effects full s (createFigureOp s h id) := by
  obtain ⟨st, sc, r, heq, hst⟩ := createFigureOp_frame s h id
  have hstorage : Effects full s { s with storage := st } := by
    obtain rfl | ⟨b, rfl | rfl⟩ := hst
    · exact .refl
    · exact .single (.stores (.put h b))
    · exact .single (.stores (.erase h))
  rw [heq]
  exact hstorage.tail .outputs

/-- A loaded slot keeps its order-added or takes the counter's value (R196). -/
theorem assignOrder_effects {i h : Nat} {blob : Bytes} (hf : s.cfg.family = .a) (hb : blob.length = s.cfg.bufLen)
    (ha : assignOrder (s.setSlot i (loadedSlot (s.slotAt i) blob h)) i = .ok t) : Effects full s t := by
  have horder := slotAt_setSlot_field Slot.order (s := s) (i := i) (x := loadedSlot (s.slotAt i) blob h) rfl
  obtain ⟨o, hsome, rfl⟩ | ⟨-, hk, rfl⟩ := assignOrder_ok ha
  · rw [horder] at hsome
    exact .single (.slot i (.reloadedA hf hb (by simp [hsome])))
  · simp only [State.setSlot_orderCounter, setSlot_setSlot_map s i _ fun y => { y with order := some s.orderCounter }]
    exact .single (.slot i (.loadedA hf hb hk))

theorem loadOpA_effects {i h : Nat} {blob : Bytes} (hf : s.cfg.family = .a) (hb : blob.length = s.cfg.bufLen)
    (hl : loadOpA s i blob h = .ok t) : Effects full s t := by
  obtain ⟨s3, ha, hroom, rfl⟩ := loadOpA_ok hl
  have hclose : Effects full s (closeReplaced s i) := closeReplaced_effects s i
  rw [← closeReplaced_slotAt s i i] at ha
  have hload := assignOrder_effects (full := full) (by rwa [hclose.cfg_eq]) (by rwa [hclose.cfg_eq]) ha
  exact (hclose.trans hload).tail (.notifies (.push (aNotif_length _ _ _ _ _) hroom))

theorem loadOpB_effects {i h : Nat} {blob : Bytes} (hf : s.cfg.family = .b) (hb : blob.length = s.cfg.bufLen)
    (hl : loadOpB s i blob h = .ok t) : Effects full s t := by
  have hclose : Effects full s (closeReplaced s i) := closeReplaced_effects s i
  obtain ⟨hroom, rfl⟩ := pushStatus_ok.1 hl
  rw [setSlot_setSlot_map _ i _ fun y => { y with squeue := y.squeue ++ [.added, .present] }]
  rw [slotAt_setSlot_field Slot.squeue (by rfl)] at hroom
  rw [← hclose.cfg_eq] at hf hb
  exact hclose.tail (.slot i (.loadedB hf hb hroom))

theorem resetOrderWhenEmpty_effects (s : State) : Effects full s (resetOrderWhenEmpty s) := by
  rw [resetOrderWhenEmpty_eq]
  split
  · exact .single (.restartsOrder (And.right ‹_›))
  · exact .refl

theorem removeOpA_effects {i : Nat} (hf : s.cfg.family = .a) (h : removeOpA s i = .ok t) : Effects full s t := by
  obtain ⟨hroom, rfl⟩ := removeOpA_ok h
  have hnotif : Effects full s { s with notif := s.notif ++ [slotNotif s.cfg i (s.slotAt i).order .removed] } :=
    .single (.notifies (.push (aNotif_length _ _ _ _ _) hroom))
  have hclose := hnotif.trans (closeHandle_effects _ (s.slotAt i).handle)
  refine (hclose.tail (.slot i ?_)).trans (resetOrderWhenEmpty_effects _)
  rw [closeHandle_slotAt]
  exact .removedA (by simpa using hf)

theorem removeOpB_effects {i : Nat} (hf : s.cfg.family = .b) (hi : i < s.slots.length) (h : removeOpB s i = .ok t) :
    Effects full s t := by
  obtain ⟨hroom, rfl⟩ := removeOpB_ok hi h
  refine (closeHandle_effects s (s.slotAt i).handle).tail (.slot i ?_)
  rw [closeHandle_slotAt]
  exact .removedB (by simpa using hf) (by simpa using hroom)

theorem statusPollOp_effects (s : State) : Effects full s (statusPollOp s) := by
  have hslots : Effects full s { s with slots := s.slots.map advanceSlot } := .single (.eachSlot fun _ => .advanced)
  exact hslots.tail .outputs

theorem pollOpA_effects (s : State) : Effects full s (pollOpA s) := by
  obtain ⟨e, rest, hq, heq⟩ | ⟨-, e, rest, hq, heq⟩ | ⟨-, -, heq⟩ := pollOpA_cases s
  · rw [heq]
    exact Effects.respond (.single (.replies (hq ▸ .pop))) _ _
  · rw [heq]
    exact Effects.respond (.single (.notifies (hq ▸ .pop))) _ _
  · rw [heq]
    exact Effects.respond .refl _ _

theorem pollOpB_effects (p : Bytes) (s : State) : Effects full s (pollOpB p s) := by
  obtain ⟨-, heq⟩ | ⟨-, e, rest, hq, heq⟩ | ⟨-, -, heq⟩ := pollOpB_cases p s
  · rw [heq]
    exact Effects.respond .refl _ _
  · rw [heq]
    exact Effects.respond (.single (.replies (hq ▸ .pop))) _ _
  · rw [heq]
    exact statusPollOp_effects s

end

end Sys2Proof.Machine
end

section
/-! PROOF. Every instruction that answers a state reaches it by effects (`exec_reached`), and so does every step once the
request is accepted (`step_keeps`). A request that decodes carries whole blocks (30_encoding.md R92, R97, R101). -/

namespace Sys2Proof.Machine

/-! ## Outcomes reached by effects -/

/-- The outcome, where it is a state, is reached by effects. -/
def Reached (full : Prop) (s : State) (o : Out) : Prop := ∀ t, o = .next t → Effects full s t

/-- The operation of a command, where it succeeds, reaches its state by effects and gives a reply of the form `fits`. -/
def Runs {α : Type} (full : Prop) (s : State) (fits : α → Prop) (e : Except Fault (State × α)) : Prop :=
  ∀ t r, e = .ok (t, r) → Effects full s t ∧ fits r

/-- A reply fills its buffer (10_state.md R38). -/
def Fills (c : Params) (r : Bytes) : Prop := r.length = c.reportLen

/-- A reply, where there is one, fills its buffer. -/
def FillsIfAny (c : Params) (o : Option Bytes) : Prop := ∀ r, o = some r → Fills c r

theorem FillsIfAny.none {c : Params} : FillsIfAny c none := fun _ h => by cases h

theorem FillsIfAny.some {c : Params} {r : Bytes} (h : Fills c r) : FillsIfAny c (some r) := fun _ e => by
  cases e
  exact h

section
variable {full : Prop} {s : State}

theorem Reached.next {t : State} (h : Effects full s t) : Reached full s (.next t) := fun _ e => by
  cases e
  exact h

/-- An operation that only gives a result. -/
theorem Reached.ends (r : Result) : Reached full s (.next (s.ends r)) := .next (Effects.ends .refl r)

theorem Reached.raise (f : Fault) : Reached full s (raise f) := fun _ e => by cases e

theorem Reached.refused (r : Refusal) : Reached full s (.refused r) := fun _ e => by cases e

theorem Reached.ite {c : Prop} [Decidable c] {x y : Out} (hx : c → Reached full s x) (hy : ¬c → Reached full s y) :
    Reached full s (if c then x else y) := by
  split
  · exact hx ‹_›
  · exact hy ‹_›

theorem Reached.onFamily {f : Family} {k : Out} (h : s.cfg.family = f → Reached full s k) :
    Reached full s (onFamily f s k) := .ite h fun _ => .refused _

theorem Reached.whenSelected {b : Bool} {t : State} (h : Effects full s t) : Reached full s (whenSelected b t) :=
  .ite (fun _ => .next h) fun _ => .refused _

theorem Runs.ok {α : Type} {fits : α → Prop} {t : State} {r : α} (h : Effects full s t) (hr : fits r) :
    Runs full s fits (.ok (t, r)) := fun _ _ e => by
  cases e
  exact ⟨h, hr⟩

theorem Runs.readOnly {e : Except Fault Bytes} (h : ∀ r, e = .ok r → Fills s.cfg r) :
    Runs full s (Fills s.cfg) (readOnly s e) := fun _ _ he => by
  obtain ⟨rfl, hr⟩ := readOnly_ok he
  exact ⟨.refl, h _ hr⟩

/-- A Family A command queues its reply and echoes its payload (R260). -/
theorem Reached.commandA {p : Bytes} {run : State → Except Fault (State × Bytes)}
    (h : s.cfg.family = .a → Runs full s (Fills s.cfg) (run s)) : Reached full s (commandA p run s) := fun _ e => by
  obtain ⟨hf, s1, reply, hr, hroom, rfl⟩ := commandA_next e
  obtain ⟨heff, hfill⟩ := h hf s1 reply hr
  exact heff.replied hfill hroom _ _

/-- A Family B command queues its reply, if it has one, and answers its payload (R300). -/
theorem Reached.commandB {p : Bytes} {run : State → Except Fault (State × Option Bytes)}
    (h : s.cfg.family = .b → Runs full s (FillsIfAny s.cfg) (run s)) : Reached full s (commandB p run s) := fun _ e => by
  obtain ⟨hf, s1, ⟨hr, rfl⟩ | ⟨reply, hr, hroom, rfl⟩⟩ := commandB_next e
  · exact Effects.respond (h hf s1 none hr).1 _ _
  · obtain ⟨heff, hfill⟩ := h hf s1 (some reply) hr
    exact heff.replied (hfill reply rfl) hroom _ _

theorem Reached.returnBytes (e : Except Fault Bytes) : Reached full s (returnBytes s e) := by
  cases e with
  | error f => exact .raise f
  | ok r => exact .ends _

theorem Reached.returnWith {fits : Bytes → Prop} {e : Except Fault (State × Bytes)} (h : Runs full s fits e) :
    Reached full s (returnWith e) := by
  cases e with
  | error f => exact .raise f
  | ok r => exact .next (Effects.ends (h r.1 r.2 rfl).1 _)

/-! ## Operations with a reply -/

theorem nextRandomReply_runs (seq : Byte) (s : State) : Runs full s (Fills s.cfg) (nextRandomReply seq s) := fun _ _ h => by
  obtain ⟨-, rfl, rfl⟩ := nextRandomReply_ok h
  exact ⟨.single .outputs, aResp_length _ _ _⟩

theorem writeBlockBySelector_runs {sel n seq : Byte} {v : Bytes} (hv : full → v.length = 16) (hf : s.cfg.family = .a) :
    Runs full s (Fills s.cfg) (writeBlockBySelector s sel n v seq) := fun _ _ h => by
  obtain ⟨slot, -, hw⟩ := writeBlockBySelector_ok h
  obtain ⟨off, hoff, ⟨-, rfl, rfl⟩ | ⟨i, -, rfl, rfl⟩⟩ := writeBlockOpA_ok hw
  · exact ⟨.refl, aResp_length _ _ _⟩
  · obtain ⟨-, -, hin⟩ := offA_ok hoff
    exact ⟨persisted_effects hv (bufLen_of_family_a hf ▸ hin), aResp_length _ _ _⟩

theorem writeBlockOpB_runs {i : Nat} {n : Byte} {v : Bytes} (hv : full → v.length = 16) (hf : s.cfg.family = .b) :
    Runs full s (Fills s.cfg) (writeBlockOpB s i n v) := fun _ _ h => by
  obtain ⟨off, hoff, rfl, rfl⟩ := writeBlockOpB_ok h
  obtain ⟨-, -, hin⟩ := offB_ok hoff
  exact ⟨persisted_effects hv (bufLen_of_family_b hf ▸ hin), bResp_length _ _⟩

theorem writeBlockBySlotByte_runs {sb blk : Byte} {v : Bytes} (hv : full → v.length = 16) (hf : s.cfg.family = .b) :
    Runs full s (FillsIfAny s.cfg) (writeBlockBySlotByte s sb blk v) := fun _ _ h => by
  obtain ⟨i, r, -, hw, rfl⟩ := writeBlockBySlotByte_ok h
  obtain ⟨heff, hfill⟩ := writeBlockOpB_runs hv hf _ _ hw
  exact ⟨heff, .some hfill⟩

theorem queryBlockBySlotByte_runs (s : State) (sb blk : Byte) :
    Runs full s (FillsIfAny s.cfg) (queryBlockBySlotByte s sb blk) := fun _ _ h => by
  obtain ⟨rfl, i, r, -, hq, rfl⟩ := queryBlockBySlotByte_ok h
  exact ⟨.refl, .some (queryBlockOpB_length hq)⟩

theorem queryBlockBySelector_fills {sel n seq : Byte} {r : Bytes} (h : queryBlockBySelector s sel n seq = .ok r) :
    Fills s.cfg r := by
  obtain ⟨slot, -, hq⟩ := queryBlockBySelector_ok h
  exact queryBlockOpA_length hq

theorem figureIdentifierBySelector_fills {sel seq : Byte} {r : Bytes}
    (h : figureIdentifierBySelector s sel seq = .ok r) : Fills s.cfg r := by
  obtain ⟨slot, -, rfl⟩ := figureIdentifierBySelector_ok h
  exact getFigureIdentifierOp_length s slot seq

theorem blankCommand_reached (cmd seq : Byte) (t : FrameTail) (s : State) : Reached full s (blankCommand cmd seq t s) :=
  .commandA fun _ => .ok .refl (aResp_length _ _ _)

/-- A load of a blob of the right size into a slot of the device loads it (R196, R197). -/
theorem execLoadFigureA_reached (slot : Byte) (h : Nat) (blob : Bytes) (s : State) :
    Reached full s (execLoadFigureA slot h blob s) := by
  refine .onFamily fun hf => .ite (fun _ => .raise _) fun _ => .ite (fun _ => .ends _) fun hb => ?_
  split
  · exact .raise _
  · exact .next (Effects.ends (loadOpA_effects hf (bufLen_of_family_a hf ▸ Decidable.not_not.1 hb) ‹_›) _)

theorem execLoadFigureB_reached (slot : Byte) (h : Nat) (blob : Bytes) (s : State) :
    Reached full s (execLoadFigureB slot h blob s) := by
  refine .onFamily fun hf => .ite (fun _ => .raise _) fun _ => .ite (fun _ => .ends _) fun hb => ?_
  split
  · exact .raise _
  · exact .next (Effects.ends (loadOpB_effects hf (bufLen_of_family_b hf ▸ Decidable.not_not.1 hb) ‹_›) _)

theorem execRemoveFigureA_reached (slot : Byte) (s : State) : Reached full s (execRemoveFigureA slot s) := by
  refine .onFamily fun hf => .ite (fun _ => .raise _) fun _ => .ite (fun _ => ?_) fun _ => .ends _
  split
  · exact .raise _
  · exact .next (Effects.ends (removeOpA_effects hf ‹_›) _)

theorem execRemoveFigureB_reached (slot : Byte) (s : State) : Reached full s (execRemoveFigureB slot s) := by
  refine .onFamily fun hf => .ite (fun _ => .raise _) fun _ => .ite (fun hp => ?_) fun _ => .ends _
  split
  · exact .raise _
  · exact .next (Effects.ends (removeOpB_effects hf (lt_of_slotAt_present hp) ‹_›) _)

theorem execGetNext_reached (s : State) : Reached full s (execGetNext s) := by
  unfold execGetNext
  split
  · exact .raise _
  · exact .next (Effects.ends (getNextOp_effects ‹_›) _)

theorem execInterruptPoll_reached (p : Bytes) (s : State) : Reached full s (execInterruptPoll p s) := by
  unfold execInterruptPoll
  split
  · exact .next (pollOpA_effects s)
  · exact .next (pollOpB_effects p s)

theorem execQueryBlockB_reached (slot blk : Byte) (s : State) : Reached full s (execQueryBlockB slot blk s) := by
  refine .onFamily fun _ => ?_
  split
  · exact .raise _
  · exact .returnBytes _

theorem execWriteBlockB_reached {slot blk : Byte} {v : Bytes} (hv : full → v.length = 16) :
    Reached full s (execWriteBlockB slot blk v s) := by
  refine .onFamily fun hf => ?_
  split
  · exact .raise _
  · exact .returnWith (writeBlockOpB_runs hv hf)

end

/-! ## Whole blocks -/

/-- The block a write carries has 16 bytes (42_registry.md R191, R193). -/
def WholeBlock : Instr → Prop
  | .aWriteBlock _ _ _ v _ => v.length = 16
  | .bWriteBlock _ _ v _ => v.length = 16
  | .writeBlockA _ _ v _ => v.length = 16
  | .writeBlockB _ _ v => v.length = 16
  | _ => True

section
variable {P : Instr → Prop} {d : Bytes} {n : Nat} {i : Instr}

/-- A decoder that asks first. -/
theorem Yields.ite_cond {c : Prop} [Decidable c] {x y : Except Reject Instr} (hx : c → Yields P x)
    (hy : ¬c → Yields P y) : Yields P (if c then x else y) := by
  split
  · exact hx ‹_›
  · exact hy ‹_›

/-- A Family A command gets as many operand bytes as it asks for (R261). -/
theorem Yields.withOperands_length {f : FrameParts} {mk : Bytes → FrameTail → Instr}
    (h : ∀ d t, d.length = n → P (mk d t)) : Yields P (Sys2Proof.withOperands f n mk) :=
  .ite_cond (fun _ => .error _) fun hn => .ok (h _ _ (List.length_take_of_le (Nat.le_of_not_lt hn)))

theorem Yields.needOperands_length (h : n ≤ d.length → P i) : Yields P (Sys2Proof.needOperands n d i) :=
  .ite_cond (fun hd => .ok (h hd)) fun _ => .error _

theorem Yields.exactly_length (h : d.length = n → P i) : Yields P (Sys2Proof.exactly n d i) :=
  .ite_cond (fun hd => .ok (h hd)) fun _ => .error _

end

theorem slice_length {d : Bytes} {off n : Nat} (h : off + n ≤ d.length) : (slice d off n).length = n := by
  simp only [slice, List.length_take, List.length_drop]
  omega

/-- Of the 15 rows of R92 the 13th, 0xA3, carries a block. -/
theorem decodeCommandA_wholeBlock (f : FrameParts) : Yields WholeBlock (decodeCommandA f) := by
  unfold decodeCommandA
  iterate 12 refine .ite (.withOperands fun _ _ => trivial) ?_
  refine .ite (.withOperands_length fun d _ hd => ?_) ?_
  · exact (List.length_drop).trans (by omega)
  iterate 2 refine .ite (.withOperands fun _ _ => trivial) ?_
  exact .error _

/-- Of the nine rows of R97 the last, 'W', carries a block. -/
theorem operandsB_wholeBlock (ch : Byte) (d : Bytes) : Yields WholeBlock (operandsB ch d) := by
  unfold operandsB
  iterate 6 refine .ite (.needOperands trivial) ?_
  refine .ite (.ok trivial) (.ite (.needOperands trivial) ?_)
  exact .ite (.needOperands_length fun hd => slice_length hd) (.error _)

theorem decodeCommand_wholeBlock (c : Params) (p : Bytes) : Yields WholeBlock (decodeCommand c p) := by
  unfold decodeCommand
  split
  · split
    · exact .error _
    · exact decodeCommandA_wholeBlock _
  · unfold decodeCommandB
    split
    · exact .error _
    · split
      · exact .error _
      · exact .ite (operandsB_wholeBlock _ _) (.error _)

/-- Of the unit calls of R101 only op 0x28 carries a block. -/
theorem decodeUnit_wholeBlock (c : Params) (op : Byte) (d : Bytes) : Yields WholeBlock (decodeUnit c op d) := by
  unfold decodeUnit
  iterate 3 refine .ite (.exactly trivial) ?_
  iterate 2 refine .ite (.ok trivial) ?_
  iterate 5 refine .ite (.exactly trivial) ?_
  refine .ite (.ok trivial) ?_
  iterate 5 refine .ite (.exactly trivial) ?_
  refine .ite ?_ (.ite ?_ (.ite (.exactly trivial) (.error _)))
  · split
    · exact .exactly trivial
    · exact .exactly trivial
  · split
    · exact .exactly_length fun hd => slice_length (by omega)
    · exact .exactly_length fun hd => (List.length_drop).trans (by omega)

theorem decodeManagement_wholeBlock (c : Params) (op : Byte) (d : Bytes) :
    Yields WholeBlock (decodeManagement c op d) := by
  unfold decodeManagement
  cases c.family with
  | a => exact .ite (.atLeast trivial) (.ite (.exactly trivial) (.ite (.exactly trivial) (.error _)))
  | b => exact .ite (.atLeast trivial) (.ite (.exactly trivial) (.ite (.exactly trivial) (.error _)))

theorem decodeHost_wholeBlock (op : Byte) (d : Bytes) : Yields WholeBlock (decodeHost op d) :=
  .ite (.ok trivial) <| .ite (.ok trivial) <| .ite (.exactly trivial) <| .ite (.ok trivial) <|
    .ite (.ok trivial) (.error _)

theorem decodePort_wholeBlock (c : Params) (e : Entry) (op : Byte) (d : Bytes) :
    Yields WholeBlock (decodePort c e op d) := by
  cases e with
  | host => exact decodeHost_wholeBlock op d
  | management => exact decodeManagement_wholeBlock c op d
  | unit => exact decodeUnit_wholeBlock c op d
  | dispatcher => exact .error _
  | pollA | idlePollA | pollB | audioEchoB | statusFrameB | queuedReplyB => exact .ite (.ok trivial) (.error _)

/-- A request that decodes carries whole blocks (R92, R97, R101). -/
theorem decode_wholeBlock {c : Params} {k : Code} {i : Instr} (h : decode c k = .ok i) : WholeBlock i := by
  by_cases hk : k.entry = .dispatcher
  · rw [decode, if_pos hk] at h
    exact decodeCommand_wholeBlock c k.bytes i h
  · obtain ⟨op, d, -, hp⟩ := decode_port_ok hk h
    exact decodePort_wholeBlock c k.entry op d i hp

/-! ## Every instruction -/

/-- What the dispatcher runs reaches its state by effects: each of the 24 commands queues its reply, if it has one, on the
state its operation leaves. -/
theorem runCommand_reached (i : Instr) (s : State) : Reached (WholeBlock i) s (runCommand i s) := by
  cases i with unfold runCommand
  | aActivate seq t => exact .commandA fun _ => .ok (activateOp_effects s) (pad_length _ _)
  | aSeed seq x t => exact .commandA fun _ => .ok (generateSeedOp_effects _ s) (aResp_length _ _ _)
  | aNextRandom seq t => exact .commandA fun _ => nextRandomReply_runs seq s
  | aBlank90 | aBlank91 | aBlank92 | aBlank93 | aBlank94 | aBlank95 | aBlank96 | aBlankB5 =>
    exact blankCommand_reached _ _ _ s
  | aPresentFigures seq t => exact .commandA fun _ => .ok .refl (aResp_length _ _ _)
  | aQueryBlock seq sel blk t => exact .commandA fun _ => .readOnly fun _ => queryBlockBySelector_fills
  | aWriteBlock seq sel blk v t => exact .commandA fun hf => writeBlockBySelector_runs id hf
  | aFigureId seq sel t => exact .commandA fun _ => .readOnly fun _ => figureIdentifierBySelector_fills
  | bActivate arg ex =>
    refine .commandB fun _ => .ok ?_ (.some (bResp_length _ _))
    split
    · exact activateOp_effects s
    · exact deactivateOp_effects s
  | bLedC | bLedL => exact .commandB fun _ => .ok (setLed_effects s _ _ _) .none
  | bLedJ zone v ex => exact .commandB fun _ => .ok (setLed_effects s _ _ _) (.some (bResp_length _ _))
  | bQueryBlock sb blk ex => exact .commandB fun _ => queryBlockBySlotByte_runs s sb blk
  | bReady | bVersion => exact .commandB fun _ => .ok .refl (.some (bResp_length _ _))
  | bStatus ex => exact .commandB fun _ => .ok .refl .none
  | bWriteBlock sb blk v ex => exact .commandB fun hf => writeBlockBySlotByte_runs id hf
  | _ => exact .refused _

/-- A control transfer is ignored, or reaches what its command reaches (R232). -/
theorem execControlTransfer_reached (p : Bytes) (s : State) : Reached True s (execControlTransfer p s) := by
  unfold execControlTransfer
  split
  · exact .ends _
  · rename_i i hd
    rw [← eq_true (decodeCommand_wholeBlock _ _ _ hd)]
    exact runCommand_reached i s

/-- Every instruction that answers a state reaches it by effects. -/
theorem exec_reached (i : Instr) (s : State) : Reached (WholeBlock i) s (exec i s) := by
  cases i with
  | aActivate | aSeed | aNextRandom | aBlank90 | aBlank91 | aBlank92 | aBlank93 | aBlank94 | aBlank95 | aBlank96
  | aPresentFigures | aQueryBlock | aWriteBlock | aFigureId | aBlankB5 | bActivate | bLedC | bLedJ | bLedL | bQueryBlock
  | bReady | bStatus | bVersion | bWriteBlock => exact runCommand_reached _ s
  | aPoll p => exact .onFamily fun _ => .next (pollOpA_effects s)
  | aIdlePoll p => exact .onFamily fun _ => .whenSelected (Effects.respond .refl _ _)
  | bPoll p => exact .onFamily fun _ => .next (pollOpB_effects p s)
  | bAudioEcho p => exact .onFamily fun _ => .whenSelected (Effects.respond .refl _ _)
  | bStatusFrame p => exact .onFamily fun _ => .whenSelected (statusPollOp_effects s)
  | bQueuedReply p => exact .onFamily fun _ => .whenSelected (pollOpB_effects p s)
  | deriveKey | encryptBlock | decryptBlock | checksum | crc32 | scramble | descramble | findByNumericId | findByName
  | allEntries | isActivated | cancelTransfer => exact .ends _
  | generateSeed seed => exact .next (Effects.ends (generateSeedOp_effects seed s) _)
  | getNext => exact execGetNext_reached s
  | activate => exact .next (Effects.ends (activateOp_effects s) _)
  | deactivate => exact .next (Effects.ends (deactivateOp_effects s) _)
  | getPresentFigures seq => exact .onFamily fun _ => .ends _
  | queryBlockA | getFigureIdentifier => exact .onFamily fun _ => .returnBytes _
  | queryBlockB slot blk => exact execQueryBlockB_reached slot blk s
  | writeBlockA sel blk v seq => exact .onFamily fun hf => .returnWith (writeBlockBySelector_runs id hf)
  | writeBlockB slot blk v => exact execWriteBlockB_reached id
  | loadFigureA slot h blob => exact execLoadFigureA_reached slot h blob s
  | loadFigureB slot h blob => exact execLoadFigureB_reached slot h blob s
  | removeFigureA slot => exact execRemoveFigureA_reached slot s
  | removeFigureB slot => exact execRemoveFigureB_reached slot s
  | createFigure h id => exact .onFamily fun _ => .next (createFigureOp_effects s h id)
  | controlTransfer p => exact execControlTransfer_reached p s
  | interruptPoll p => exact execInterruptPoll_reached p s
  | createFigureB | bulkTransfer | isochronousTransfer => exact .raise _

/-- Settles O56: no effect writes these fields, so no instruction does. -/
theorem configurationIsNotState : Obligations.ConfigurationIsNotState := fun i s t h =>
  (exec_reached i s t h).sameEnvironment

/-! ## Every step -/

/-- A request that answers a state reaches it by effects that store whole blocks. -/
theorem runRequest_reached (r : Request) (s : State) : Reached True s (runRequest r s) := by
  unfold runRequest
  split
  · rename_i i hd
    rw [← eq_true (decode_wholeBlock hd)]
    exact exec_reached i s
  · exact .ite (fun _ => .ends _) fun _ => .refused _

/-- What the acceptance of a request and every effect keep, a step keeps. -/
theorem step_keeps {P : State → Prop} (haccept : ∀ s r rest, P s → P (s.accept r rest))
    (heffect : ∀ s t, Effect True s t → P s → P t) {s t : State} (hs : P s) (h : step s = .next t) : P t := by
  unfold step at h
  split at h
  · cases h
    exact hs
  · exact (runRequest_reached _ _ t h).keeps heffect (haccept s _ _ hs)

end Sys2Proof.Machine
end

section
/-! PROOF. The invariants of 10_state.md R24, R27, R30, R32, R38, R45 to R47: each holds right after reset (R48) and is kept
by every effect, hence by every step. An invariant of each slot is proved against `SlotChange`, one of a queue against
`QueueChange`, one of a map against `MapChange`. -/

namespace Sys2Proof.Machine

/-! ## What one change keeps -/

section
variable {full : Prop} {c : Params} {x y : Slot} {k n : Nat}

/-- A slot buffer keeps its form and its length where whole blocks are written (R47, log 21). -/
theorem SlotChange.shaped (h : SlotChange True c x k y n) (hx : x.data.wf = true ∧ x.data.below c.bufLen = true) :
    y.data.wf = true ∧ y.data.below c.bufLen = true := by
  obtain ⟨hwf, hbelow⟩ := hx
  cases h with
  | block hv ho => exact ⟨Memory.wf_write hwf _ _, Memory.below_write hbelow (by rwa [hv trivial])⟩
  | reloadedA _ hb | loadedA _ hb | loadedB _ hb => exact ⟨Memory.wf_ofBytes _, hb ▸ Memory.below_ofBytes _⟩
  | advanced => exact ⟨by rwa [advanceSlot_data], by rwa [advanceSlot_data]⟩
  | collapsed | removedA | removedB => exact ⟨hwf, hbelow⟩

/-- A status queue stays within its capacity (R32, 60_exceptions.md R344). -/
theorem SlotChange.squeue_hasRoom (h : SlotChange full c x k y n) (hx : hasRoom c x.squeue.length 0 = true) :
    hasRoom c y.squeue.length 0 = true := by
  cases h with
  | block | reloadedA | loadedA | removedA => exact hx
  | advanced =>
    refine hasRoom_mono ?_ hx
    unfold advanceSlot
    split
    · exact Nat.le_refl _
    · simp_all
  | collapsed => exact hasRoom_mono (Nat.zero_le _) hx
  | loadedB _ _ hr | removedB _ hr => simpa using hasRoom_add hr

/-- A slot has a handle exactly while it is present (R27). -/
theorem SlotChange.handle_iff_present (h : SlotChange full c x k y n) (hx : x.handle.isSome = x.present) :
    y.handle.isSome = y.present := by
  cases h with
  | block | collapsed => exact hx
  | advanced => rwa [advanceSlot_handle, advanceSlot_present]
  | reloadedA | loadedA | loadedB | removedA | removedB => rfl

@[simp] theorem terminalStatus_advanceSlot (x : Slot) : terminalStatus (advanceSlot x) = terminalStatus x := by
  unfold advanceSlot
  split
  · rfl
  · rename_i q rest hq
    simp only [terminalStatus, hq, List.getLastD_cons]

/-- On Family B the queued transitions of a slot end in its resting status (R46). -/
theorem SlotChange.terminalStatus_eq (h : SlotChange full c x k y n) (hf : c.family = .b)
    (hx : terminalStatus x = restingStatus x) : terminalStatus y = restingStatus y := by
  cases h with
  | block => exact hx
  | advanced => rw [terminalStatus_advanceSlot, hx, restingStatus, restingStatus, advanceSlot_present]
  | collapsed => rfl
  | reloadedA hf' | loadedA hf' | removedA hf' => simp [hf] at hf'
  | loadedB | removedB => simp [terminalStatus, restingStatus, loadedSlot]

/-- On Family A a slot has an order-added exactly while it is present (R28). -/
theorem SlotChange.order_iff_present (h : SlotChange full c x k y n) (hf : c.family = .a)
    (hx : x.order.isSome = x.present) : y.order.isSome = y.present := by
  cases h with
  | block | collapsed => exact hx
  | advanced => rwa [advanceSlot_order, advanceSlot_present]
  | reloadedA _ _ ho => exact ho
  | loadedA | removedA => rfl
  | loadedB hf' | removedB hf' => simp [hf] at hf'

/-- The order-added of a slot is what it was, or unassigned, while the counter stands still; or it is the counter's value,
within ORDER_MAX, and the counter moves on (R28, R29). -/
theorem SlotChange.order_cases (h : SlotChange full c x k y n) :
    ((y.order = x.order ∨ y.order = none) ∧ n = k) ∨ (y.order = some k ∧ k ≤ c.orderMax ∧ n = k + 1) := by
  cases h with
  | block | collapsed | reloadedA | loadedB | removedB => exact .inl ⟨.inl rfl, rfl⟩
  | advanced => exact .inl ⟨.inl (advanceSlot_order x), rfl⟩
  | loadedA _ _ hk => exact .inr ⟨rfl, hk, rfl⟩
  | removedA => exact .inl ⟨.inr rfl, rfl⟩

/-- A queue of full buffers within its capacity stays one (R30, R38). -/
theorem QueueChange.queueOk {q q' : List Bytes} (h : QueueChange c q q') (hq : QueueOk c q) : QueueOk c q' := by
  obtain ⟨hlen, hroom⟩ := hq
  cases h with
  | push hl hr =>
    refine ⟨fun e he => ?_, by simpa using hasRoom_add hr⟩
    obtain he | he := List.mem_append.1 he
    · exact hlen e he
    · exact List.mem_singleton.1 he ▸ hl
  | pop => exact ⟨fun e he => hlen e (List.mem_cons_of_mem _ he), hasRoom_mono (Nat.le_succ _) hroom⟩

theorem MapChange.assocWf {m m' : List (Nat × Bytes)} (h : MapChange m m') (hm : assocWf m = true) :
    Machine.assocWf m' = true := by
  cases h with
  | put a v => exact assocWf_put hm a v
  | erase a => exact assocWf_erase hm a

end

/-! ## What one effect keeps -/

section
variable {full : Prop} {s t : State}

/-- A fact about every slot is kept where every change of a slot keeps it. -/
theorem Effect.forall_slots {P : Slot → Prop} (h : Effect full s t)
    (hP : ∀ x k y n, SlotChange full s.cfg x k y n → P x → P y) (hs : ∀ x ∈ s.slots, P x) : ∀ x ∈ t.slots, P x := by
  cases h with
  | outputs | replies | notifies | lights | stores | restartsOrder => exact hs
  | slot i hc =>
    intro x hx
    by_cases hi : i < s.slots.length
    · obtain rfl | hx := mem_setSlot hx
      · exact hP _ _ _ _ hc (hs _ (slotAt_mem hi))
      · exact hs x hx
    · rw [setSlot_of_length_le (Nat.le_of_not_lt hi)] at hx
      exact hs x hx
  | eachSlot hc =>
    intro y hy
    obtain ⟨x, hx, rfl⟩ := List.mem_map.1 hy
    exact hP _ _ _ _ (hc x) (hs x hx)

theorem Effect.cfg_eq (h : Effect full s t) : t.cfg = s.cfg := (h.sameEnvironment (.refl s)).1

/-- The slot count is fixed (R24). -/
theorem Effect.length_slots (h : Effect full s t) : t.slots.length = s.slots.length := by
  cases h with
  | outputs | replies | notifies | lights | stores | restartsOrder => rfl
  | slot i => exact setSlot_length s i _
  | eachSlot => exact List.length_map _

theorem Effect.slotsShaped (h : Effect True s t) (hs : SlotsShaped s) : SlotsShaped t := by
  obtain ⟨hlen, hall⟩ := hs
  unfold SlotsShaped
  rw [h.length_slots, h.cfg_eq]
  exact ⟨hlen, h.forall_slots (fun _ _ _ _ hc => hc.shaped) hall⟩

theorem Effect.queueOk_tq (h : Effect full s t) (hs : QueueOk s.cfg s.tq) : QueueOk t.cfg t.tq := by
  cases h with
  | replies hc => exact hc.queueOk hs
  | _ => exact hs

theorem Effect.queueOk_notif (h : Effect full s t) (hs : QueueOk s.cfg s.notif) : QueueOk t.cfg t.notif := by
  cases h with
  | notifies hc => exact hc.queueOk hs
  | _ => exact hs

theorem Effect.queuesShaped (h : Effect full s t) (hs : QueuesShaped s) : QueuesShaped t := by
  obtain ⟨htq, hnotif, hstatus⟩ := hs
  refine ⟨h.queueOk_tq htq, h.queueOk_notif hnotif, ?_⟩
  rw [h.cfg_eq]
  exact h.forall_slots (fun _ _ _ _ hc => hc.squeue_hasRoom) hstatus

theorem Effect.handlesMatch (h : Effect full s t) (hs : HandlesMatch s) : HandlesMatch t :=
  h.forall_slots (fun _ _ _ _ hc => hc.handle_iff_present) hs

theorem Effect.mapsCanonical (h : Effect full s t) (hs : MapsCanonical s) : MapsCanonical t := by
  obtain ⟨hled, hstorage⟩ := hs
  cases h with
  | lights hc => exact ⟨hc.assocWf hled, hstorage⟩
  | stores hc => exact ⟨hled, hc.assocWf hstorage⟩
  | _ => exact ⟨hled, hstorage⟩

theorem Effect.statusOk (h : Effect full s t) (hs : StatusOk s) : StatusOk t := by
  intro hf
  rw [h.cfg_eq] at hf
  exact h.forall_slots (fun _ _ _ _ hc => hc.terminalStatus_eq hf) (hs hf)

/-! ### Order-added values -/

/-- Every order-added is below the counter (R29). -/
def OrdersBelow (s : State) : Prop := ∀ i o, (s.slotAt i).order = some o → o < s.orderCounter

/-- No order-added stands in two slots (R45). -/
def OrdersDistinct (s : State) : Prop :=
  ∀ i j o, (s.slotAt i).order = some o → (s.slotAt j).order = some o → i = j

/-- Slot `i` has no order-added in `t` that it did not have in `s`. -/
def OrderKept (s t : State) (i : Nat) : Prop := ∀ o, (t.slotAt i).order = some o → (s.slotAt i).order = some o

theorem lt_of_slotAt_order {i o : Nat} (h : (s.slotAt i).order = some o) : i < s.slots.length := by
  refine Nat.lt_of_not_le fun hi => ?_
  rw [slotAt_of_length_le hi] at h
  cases h

theorem exists_slotAt_of_mem {x : Slot} (h : x ∈ s.slots) : ∃ i, i < s.slots.length ∧ s.slotAt i = x := by
  obtain ⟨i, hi, rfl⟩ := List.mem_iff_getElem.1 h
  exact ⟨i, hi, by simp [State.slotAt, List.getD_eq_getElem?_getD, hi]⟩

/-- The invariant of R28, R29 and R45 in terms of the order-added values alone: presence is another name for having one. -/
theorem ordersOk_iff : OrdersOk s ↔ (s.cfg.family = .a →
    (∀ x ∈ s.slots, x.order.isSome = x.present) ∧ OrdersBelow s ∧ OrdersDistinct s ∧
      s.orderCounter ≤ s.cfg.orderMax + 1) := by
  refine forall_congr' fun _ => and_congr_right fun hpres => and_congr ?_ (and_congr_left fun _ => ?_)
  · constructor
    · exact fun h i o ho => h _ (slotAt_mem (lt_of_slotAt_order ho)) o ho
    · intro h x hx o ho
      obtain ⟨i, -, rfl⟩ := exists_slotAt_of_mem hx
      exact h i o ho
  · constructor
    · intro h i j o hi hj
      refine Decidable.byContradiction fun hne => ?_
      have hpresent : ∀ {k}, (s.slotAt k).order = some o → (s.slotAt k).present = true := fun hk => by
        rw [← hpres _ (slotAt_mem (lt_of_slotAt_order hk)), hk]
        rfl
      exact h i j (lt_of_slotAt_order hi) (lt_of_slotAt_order hj) hne (hpresent hi) (hpresent hj) (hi.trans hj.symm)
    · intro h i j hi hj hne hpi hpj heq
      rw [← hpres _ (slotAt_mem hi)] at hpi
      obtain ⟨o, ho⟩ := Option.isSome_iff_exists.1 hpi
      exact hne (h i j o ho (heq ▸ ho))

/-- What an effect does to the order-added values (R28, R29, R196, R198): none is new, and the counter stands still, or
starts again where every slot is empty; or one slot gets the counter's value, within ORDER_MAX, and the counter moves on. -/
theorem Effect.orders (h : Effect full s t) :
    ((∀ j, OrderKept s t j) ∧
      (t.orderCounter = s.orderCounter ∨ (s.allAbsent = true ∧ t.orderCounter = s.cfg.orderInitial))) ∨
    ∃ i, (∀ j, j ≠ i → OrderKept s t j) ∧ (∀ o, (t.slotAt i).order = some o → o = s.orderCounter) ∧
      s.orderCounter ≤ s.cfg.orderMax ∧ t.orderCounter = s.orderCounter + 1 := by
  cases h with
  | outputs | replies | notifies | lights | stores => exact .inl ⟨fun _ _ ho => ho, .inl rfl⟩
  | restartsOrder ha => exact .inl ⟨fun _ _ ho => ho, .inr ⟨ha, rfl⟩⟩
  | @eachSlot f hc =>
    refine .inl ⟨fun j o ho => ?_, .inl rfl⟩
    have hj : j < s.slots.length := by simpa using lt_of_slotAt_order ho
    have hslot : State.slotAt { s with slots := s.slots.map f } j = f (s.slotAt j) := by
      simp [State.slotAt, List.getD_eq_getElem?_getD, hj]
    rw [hslot] at ho
    obtain ⟨hsame | hnone, -⟩ | ⟨-, -, hcount⟩ := (hc (s.slotAt j)).order_cases
    · rwa [hsame] at ho
    · rw [hnone] at ho
      cases ho
    · omega
  | @slot i y n hc =>
    have hother : ∀ j, j ≠ i → OrderKept s (s.setSlot i y) j := fun j hj o ho => by
      rwa [slotAt_setSlot_ne hj.symm] at ho
    have hself : ∀ o, ((s.setSlot i y).slotAt i).order = some o → y.order = some o := fun o ho => by
      rwa [slotAt_setSlot_self (by simpa using lt_of_slotAt_order ho)] at ho
    obtain ⟨hkept, hcount⟩ | ⟨hnew, hmax, hcount⟩ := hc.order_cases
    · refine .inl ⟨fun j o ho => ?_, .inl hcount⟩
      by_cases hj : j = i
      · subst hj
        obtain hsame | hnone := hkept
        · exact hsame ▸ hself o ho
        · exact absurd (hself o ho) (by simp [hnone])
      · exact hother j hj o ho
    · exact .inr ⟨i, hother, fun o ho => by simpa [hnew] using (hself o ho).symm, hmax, hcount⟩

/-- Where every slot is empty no slot has an order-added. -/
theorem order_eq_none_of_allAbsent (hpres : ∀ x ∈ s.slots, x.order.isSome = x.present) (ha : s.allAbsent = true)
    (i o : Nat) : (s.slotAt i).order ≠ some o := by
  intro ho
  have hmem := slotAt_mem (lt_of_slotAt_order ho)
  have hp := hpres _ hmem
  have habsent : (s.slotAt i).present = false := by simpa using List.all_eq_true.1 ha _ hmem
  simp [ho, habsent] at hp

theorem Effect.ordersBelow (h : Effect full s t) (hpres : ∀ x ∈ s.slots, x.order.isSome = x.present)
    (hs : OrdersBelow s) : OrdersBelow t := by
  intro j o ho
  obtain ⟨hkept, hcount | ⟨ha, -⟩⟩ | ⟨i, hkept, hnew, -, hcount⟩ := h.orders
  · rw [hcount]
    exact hs j o (hkept j o ho)
  · exact absurd (hkept j o ho) (order_eq_none_of_allAbsent hpres ha j o)
  · by_cases hj : j = i
    · subst hj
      have := hnew o ho
      omega
    · have := hs j o (hkept j hj o ho)
      omega

/-- A new order-added is the counter's value, which is above every other. -/
theorem Effect.ordersDistinct (h : Effect full s t) (hbelow : OrdersBelow s) (hs : OrdersDistinct s) :
    OrdersDistinct t := by
  intro j l o hj hl
  obtain ⟨hkept, -⟩ | ⟨i, hkept, hnew, -, -⟩ := h.orders
  · exact hs j l o (hkept j o hj) (hkept l o hl)
  · have hnot : ∀ {k}, k ≠ i → (t.slotAt k).order = some o → o < s.orderCounter := fun hk ho =>
      hbelow _ o (hkept _ hk o ho)
    by_cases hji : j = i
    · subst hji
      refine Decidable.byContradiction fun hne => ?_
      exact absurd (hnot (Ne.symm hne) hl) (by simp [hnew o hj])
    · by_cases hli : l = i
      · subst hli
        exact absurd (hnot hji hj) (by simp [hnew o hl])
      · exact hs j l o (hkept j hji o hj) (hkept l hli o hl)

theorem Effect.ordersOk (h : Effect full s t) (hinit : s.cfg.orderInitial ≤ s.cfg.orderMax + 1) (hs : OrdersOk s) :
    OrdersOk t := by
  rw [ordersOk_iff] at *
  rw [h.cfg_eq]
  intro hf
  obtain ⟨hpres, hbelow, hdistinct, hcounter⟩ := hs hf
  refine ⟨h.forall_slots (fun _ _ _ _ hc => hc.order_iff_present hf) hpres, h.ordersBelow hpres hbelow,
    h.ordersDistinct hbelow hdistinct, ?_⟩
  obtain ⟨-, hcount | ⟨-, hcount⟩⟩ | ⟨i, -, -, hmax, hcount⟩ := h.orders
  · omega
  · omega
  · omega

end

/-! ## Every step -/

/-- Settles O52: every effect of a step keeps the slot count and the buffers' shape. -/
theorem stepKeepsSlotsShaped : Obligations.StepKeepsSlotsShaped := fun _ _ hs h =>
  step_keeps (P := SlotsShaped) (fun _ _ _ hs => hs) (fun _ _ he => he.slotsShaped) hs h

/-- Settles O53: three invariants, each kept by every effect of a step. -/
theorem stepKeepsQueuesHandlesMaps : Obligations.StepKeepsQueuesHandlesMaps := fun _ _ h =>
  ⟨fun hs => step_keeps (P := QueuesShaped) (fun _ _ _ hs => hs) (fun _ _ he => he.queuesShaped) hs h,
    fun hs => step_keeps (P := HandlesMatch) (fun _ _ _ hs => hs) (fun _ _ he => he.handlesMatch) hs h,
    fun hs => step_keeps (P := MapsCanonical) (fun _ _ _ hs => hs) (fun _ _ he => he.mapsCanonical) hs h⟩

/-- Settles O54: every effect of a step keeps the order-added values distinct, on a device whose counter starts within
its range. -/
theorem stepKeepsOrdersDistinct : Obligations.StepKeepsOrdersDistinct := fun _ _ hinit hs h =>
  (step_keeps (P := fun s => s.cfg.orderInitial ≤ s.cfg.orderMax + 1 ∧ OrdersOk s) (fun _ _ _ hs => hs)
    (fun _ _ he ⟨hi, ho⟩ => ⟨he.cfg_eq ▸ hi, he.ordersOk hi ho⟩) ⟨hinit, hs⟩ h).2

/-- Settles O55: every effect of a step keeps the queued transitions' last status. -/
theorem stepKeepsStatusTerminal : Obligations.StepKeepsStatusTerminal := fun _ _ hs h =>
  step_keeps (P := StatusOk) (fun _ _ _ hs => hs) (fun _ _ he => he.statusOk) hs h

/-! ## Right after reset -/

section
variable {c : Params} {files : List (Nat × Bytes)}

@[simp] theorem slotAt_resetWith (i : Nat) : (State.resetWith c files).slotAt i = Slot.empty := by
  by_cases hi : i < (State.resetWith c files).slots.length
  · exact List.eq_of_mem_replicate (slotAt_mem hi)
  · exact slotAt_of_length_le (Nat.le_of_not_lt hi)

/-- After reset a fact about the empty slot is one about every slot (R48). -/
theorem forall_slots_resetWith {P : Slot → Prop} (h : P Slot.empty) : ∀ x ∈ (State.resetWith c files).slots, P x :=
  fun _ hx => List.eq_of_mem_replicate hx ▸ h

theorem length_slots_resetWith : (State.resetWith c files).slots.length = c.nSlots := List.length_replicate

theorem hasRoom_zero (c : Params) : hasRoom c 0 0 = true := by
  unfold hasRoom
  split
  · rfl
  · simp

theorem queueOk_nil (c : Params) : QueueOk c [] := ⟨List.forall_mem_nil _, hasRoom_zero c⟩

theorem ordersOk_resetWith (h : c.orderInitial ≤ c.orderMax + 1) : OrdersOk (State.resetWith c files) := by
  rw [ordersOk_iff]
  refine fun _ => ⟨forall_slots_resetWith rfl, fun i o ho => ?_, fun i j o hi => ?_, h⟩
  · simp [Slot.empty] at ho
  · simp [Slot.empty] at hi

end

/-- Settles O50: the empty slots and queues of R48 meet every invariant. -/
theorem resetMeetsTheInvariants : Obligations.ResetMeetsTheInvariants := fun c _ hinit hfiles =>
  ⟨⟨length_slots_resetWith, forall_slots_resetWith ⟨rfl, rfl⟩⟩,
    ⟨queueOk_nil c, queueOk_nil c, forall_slots_resetWith (hasRoom_zero c)⟩,
    forall_slots_resetWith rfl, ordersOk_resetWith hinit, fun _ => forall_slots_resetWith rfl, rfl, hfiles⟩

/-- Settles O51: the table of R48, field by field. -/
theorem resetValues : Obligations.ResetValues := by
  refine ⟨fun c files => ⟨rfl, rfl, rfl, length_slots_resetWith, fun i _ => ?_, rfl, rfl, rfl, rfl, rfl, rfl, rfl⟩, rfl,
    by decide⟩
  rw [slotAt_resetWith]
  exact ⟨rfl, fun _ => rfl, rfl, rfl, rfl, rfl⟩

end Sys2Proof.Machine
end

section
/-! PROOF. One step, by the state of the inbox (20_memory.md R64, 10_state.md R21, 70_reset_and_hazards.md R371). -/

namespace Sys2Proof.Machine

variable {s : State} {r : Request} {rest : List Request} {i : Instr}

/-- With no request the core waits (R371). -/
theorem step_of_inbox_nil (h : s.inbox = []) : step s = .next s := by simp only [step, h]

/-- The oldest waiting request is accepted and run (R64). -/
theorem step_of_inbox_cons (h : s.inbox = r :: rest) : step s = runRequest r (s.accept r rest) := by simp only [step, h]

/-- A request that holds an instruction runs it (R21). -/
theorem runRequest_of_decode (h : decode s.cfg r.code = .ok i) : runRequest r s = exec i s := by
  simp only [runRequest, h]

/-- Settles O6: accepting a request leaves the parameters as they were, so it decodes as it did while it waited. -/
theorem stepRunsTheDecodedInstruction : Obligations.StepRunsTheDecodedInstruction := by
  refine ⟨fun s r rest i hinbox hdecode => ?_, fun s => step_of_inbox_nil⟩
  have hdecode' : decode (s.accept r rest).cfg r.code = .ok i := by rwa [State.accept_cfg]
  exact (step_of_inbox_cons hinbox).trans (runRequest_of_decode hdecode')

end Sys2Proof.Machine
end

section
/-! PROOF. The frame of a block write (20_memory.md R60, R62, 42_registry.md R191 to R193): the one write-and-persist of
R192 touches the 16 bytes it stores to, and each of the four write forms is that write with the outputs set. -/

namespace Sys2Proof.Machine

variable {s t : State} {off : Nat} {v : Bytes}

/-! ## Buffers -/

/-- Every buffer has its form, that of a slot number past the end too: it reads as an empty slot's (R47, log 21). -/
theorem SlotsShaped.wf_data (hs : SlotsShaped s) (i : Nat) : (s.slotAt i).data.wf = true := by
  obtain ⟨-, hall⟩ := hs
  by_cases hi : i < s.slots.length
  · exact (hall _ (slotAt_mem hi)).1
  · rw [slotAt_of_length_le (Nat.le_of_not_lt hi)]
    exact Memory.wf_nil

/-- A store leaves the bytes outside its range as they were (R60). -/
theorem Memory.get_write_outside {m : Memory} (hm : m.wf = true) {a : Nat} (h : ¬(off ≤ a ∧ a < off + v.length)) :
    (m.write off v).get a = m.get a := by
  rw [Memory.get_write hm, if_neg h]

/-! ## The write-and-persist -/

/-- Where nothing is written every byte is as it was. -/
theorem OnlyBlockChanged.refl (s : State) (slot : Option Nat) (off : Nat) : OnlyBlockChanged s s slot off :=
  fun _ _ _ => rfl

/-- The bytes are the slots' alone. -/
theorem OnlyBlockChanged.of_slots_eq {u : State} {slot : Option Nat} (h : OnlyBlockChanged s t slot off)
    (hu : u.slots = t.slots) : OnlyBlockChanged s u slot off := fun j a hout => by
  rw [State.slotAt, hu]
  exact h j a hout

/-- A write-and-persist leaves every byte but those it stores to (R192), however it ends: the slot's data are written or
put back, and no other slot is replaced. -/
theorem onlyBlockChanged_persisted (hs : SlotsShaped s) (hv : v.length = 16) (i off : Nat) :
    OnlyBlockChanged s (persisted s i off v).1 (some i) off := by
  obtain ⟨d, st, sc, heq, hd, -⟩ := persisted_frame s i off v
  rw [heq]
  refine .of_slots_eq (t := s.setSlot i { s.slotAt i with data := d }) (fun j a hout => ?_) rfl
  by_cases hj : i = j
  · subst hj
    have hkept : d.get a = (s.slotAt i).data.get a := by
      obtain rfl | rfl := hd
      · rfl
      · exact Memory.get_write_outside (hs.wf_data i) fun ha => hout ⟨rfl, hv ▸ ha⟩
    exact slotAt_setSlot_field (fun x => x.data.get a) hkept
  · rw [slotAt_setSlot_ne hj]

/-- R191: a Family A write stores in the resolved slot, or finds none and stores nothing. -/
theorem onlyBlockChanged_writeBlockOpA {slot : Option Nat} {blk seq : Byte} {r : Bytes} (hs : SlotsShaped s)
    (hv : v.length = 16) (hoff : offA s.cfg blk = .ok off) (h : writeBlockOpA s slot blk v seq = .ok (t, r)) :
    OnlyBlockChanged s t slot off := by
  obtain ⟨off', hoff', ⟨-, rfl, -⟩ | ⟨i, rfl, rfl, -⟩⟩ := writeBlockOpA_ok h
  · exact .refl _ _ _
  · obtain rfl : off = off' := Except.ok.inj (hoff.symm.trans hoff')
    exact onlyBlockChanged_persisted hs hv i off

/-- The Family A write of 0xA3 and WriteBlock_A, at the slot the selector names (R191, R195, R278). -/
theorem onlyBlockChanged_writeBlockBySelector {slot : Option Nat} {sel blk seq : Byte} {r : Bytes} (hs : SlotsShaped s)
    (hv : v.length = 16) (hslot : resolveA s sel = .ok slot) (hoff : offA s.cfg blk = .ok off)
    (h : writeBlockBySelector s sel blk v seq = .ok (t, r)) : OnlyBlockChanged s t slot off := by
  obtain ⟨slot', hslot', hw⟩ := writeBlockBySelector_ok h
  obtain rfl : slot = slot' := Except.ok.inj (hslot.symm.trans hslot')
  exact onlyBlockChanged_writeBlockOpA hs hv hoff hw

/-- R193: a Family B write stores in the slot it is given. -/
theorem onlyBlockChanged_writeBlockOpB {i : Nat} {blk : Byte} {r : Bytes} (hs : SlotsShaped s) (hv : v.length = 16)
    (hoff : offB s.cfg blk = .ok off) (h : writeBlockOpB s i blk v = .ok (t, r)) :
    OnlyBlockChanged s t (some i) off := by
  obtain ⟨off', hoff', rfl, -⟩ := writeBlockOpB_ok h
  obtain rfl : off = off' := Except.ok.inj (hoff.symm.trans hoff')
  exact onlyBlockChanged_persisted hs hv i off

/-! ## The four write forms

The reply, the echo and the result of a unit call are no part of a slot, so each outcome has the slots of its write. -/

/-- A unit call that answers ran its operation and returned its bytes. -/
theorem returnWith_next {e : Except Fault (State × Bytes)} (h : returnWith e = .next t) :
    ∃ s1 r, e = .ok (s1, r) ∧ t = s1.ends (.bytes r) := by
  cases e with
  | error f => cases h
  | ok x =>
    cases h
    exact ⟨x.1, x.2, rfl, rfl⟩

/-- 0xA3 (R278). -/
theorem onlyBlockChanged_execAWriteBlock {slot : Option Nat} {seq sel blk : Byte} {tl : FrameTail} (hs : SlotsShaped s)
    (hv : v.length = 16) (hslot : resolveA s sel = .ok slot) (hoff : offA s.cfg blk = .ok off)
    (h : execAWriteBlock seq sel blk v tl s = .next t) : OnlyBlockChanged s t slot off := by
  obtain ⟨-, s1, reply, hrun, -, rfl⟩ := commandA_next h
  exact (onlyBlockChanged_writeBlockBySelector hs hv hslot hoff hrun).of_slots_eq rfl

/-- WriteBlock_A (R191). -/
theorem onlyBlockChanged_execWriteBlockA {slot : Option Nat} {sel blk seq : Byte} (hs : SlotsShaped s)
    (hv : v.length = 16) (hslot : resolveA s sel = .ok slot) (hoff : offA s.cfg blk = .ok off)
    (h : execWriteBlockA sel blk v seq s = .next t) : OnlyBlockChanged s t slot off := by
  obtain ⟨-, hret⟩ := onFamily_next h
  obtain ⟨s1, r, hrun, rfl⟩ := returnWith_next hret
  exact (onlyBlockChanged_writeBlockBySelector hs hv hslot hoff hrun).of_slots_eq rfl

/-- 'W' (R311): it always replies, so the outcome without a reply cannot be. -/
theorem onlyBlockChanged_execBWriteBlock {i : Nat} {sb blk : Byte} {ex : Bytes} (hs : SlotsShaped s)
    (hv : v.length = 16) (hslot : resolveB s sb = .ok i) (hoff : offB s.cfg blk = .ok off)
    (h : execBWriteBlock sb blk v s ex = .next t) : OnlyBlockChanged s t (some i) off := by
  obtain ⟨-, s1, ⟨hrun, -⟩ | ⟨reply, hrun, -, rfl⟩⟩ := commandB_next h
  · obtain ⟨i', r, -, -, hnone⟩ := writeBlockBySlotByte_ok hrun
    cases hnone
  · obtain ⟨i', r, hslot', hw, -⟩ := writeBlockBySlotByte_ok hrun
    obtain rfl : i = i' := Except.ok.inj (hslot.symm.trans hslot')
    exact (onlyBlockChanged_writeBlockOpB hs hv hoff hw).of_slots_eq rfl

/-- WriteBlock_B (R193), at the slot number it is given, unmasked (log 17). -/
theorem onlyBlockChanged_execWriteBlockB {slot blk : Byte} (hs : SlotsShaped s) (hv : v.length = 16)
    (hoff : offB s.cfg blk = .ok off) (h : execWriteBlockB slot blk v s = .next t) :
    OnlyBlockChanged s t (some slot.toNat) off := by
  obtain ⟨-, hret⟩ := onFamily_next h
  split at hret
  · cases hret
  · rename_i i hslot
    obtain ⟨rfl, -⟩ := slotB_ok hslot
    obtain ⟨s1, r, hrun, rfl⟩ := returnWith_next hret
    exact (onlyBlockChanged_writeBlockOpB hs hv hoff hrun).of_slots_eq rfl

/-- Settles O23: each write form stores through the one write-and-persist, at the address its operands resolve to. -/
theorem blockWriteFrame : Obligations.BlockWriteFrame := by
  intro seq sel sb x blk v ex tl s t hs hv
  refine ⟨fun slot off hslot hoff h => ?_, fun i off hslot hoff => onlyBlockChanged_execBWriteBlock hs hv hslot hoff,
    fun off hoff => onlyBlockChanged_execWriteBlockB hs hv hoff⟩
  obtain h | h := h
  · exact onlyBlockChanged_execAWriteBlock hs hv hslot hoff h
  · exact onlyBlockChanged_execWriteBlockA hs hv hslot hoff h

end Sys2Proof.Machine
end

section
/-! PROOF. Byte strings and the numbers they spell (00_scope.md R11): `beNat` and `toBe` undo each other on byte strings
of a length and the numbers below 256 to that length. -/

namespace Sys2Proof.Machine

/-! ## Numbers of any length -/

theorem foldl_eq_beNat (acc : Nat) (bs : Bytes) :
    bs.foldl (fun acc b => acc * 256 + b.toNat) acc = acc * 256 ^ bs.length + beNat bs := by
  induction bs generalizing acc with
  | nil => rw [List.foldl_nil, List.length_nil, Nat.pow_zero, Nat.mul_one, beNat, List.foldl_nil, Nat.add_zero]
  | cons b bs ih =>
    rw [beNat, List.foldl_cons, List.foldl_cons, ih, ih (0 * 256 + b.toNat), List.length_cons, Nat.pow_succ',
      Nat.zero_mul, Nat.zero_add, Nat.add_mul, Nat.mul_assoc, Nat.add_assoc]

/-- The first byte is the most significant. -/
theorem beNat_cons (b : Byte) (bs : Bytes) : beNat (b :: bs) = b.toNat * 256 ^ bs.length + beNat bs := by
  rw [beNat, List.foldl_cons, foldl_eq_beNat, Nat.zero_mul, Nat.zero_add]

theorem beNat_lt (bs : Bytes) : beNat bs < 256 ^ bs.length := by
  induction bs with
  | nil => exact Nat.one_pos
  | cons b bs ih =>
    have hb : (b.toNat + 1) * 256 ^ bs.length ≤ 256 * 256 ^ bs.length := Nat.mul_le_mul_right _ b.isLt
    rw [Nat.add_one_mul] at hb
    rw [beNat_cons, List.length_cons, Nat.pow_succ']
    exact Nat.lt_of_lt_of_le (Nat.add_lt_add_left ih _) hb

theorem beNat_lt_of_length {n : Nat} {bs : Bytes} (h : bs.length = n) : beNat bs < 256 ^ n := h ▸ beNat_lt bs

theorem beNat_toBe_mod (n v : Nat) : beNat (toBe n v) = v % 256 ^ n := by
  induction n with
  | zero => exact (Nat.mod_one v).symm
  | succ n ih =>
    rw [toBe, beNat_cons, toBe_length, ih, BitVec.toNat_ofNat, Nat.mod_pow_succ (b := 256), Nat.add_comm,
      Nat.mul_comm]

theorem beNat_toBe {n v : Nat} (h : v < 256 ^ n) : beNat (toBe n v) = v := by
  rw [beNat_toBe_mod, Nat.mod_eq_of_lt h]

/-- The first byte is what is left of the number without the later bytes. -/
theorem beNat_cons_div (b : Byte) (bs : Bytes) : beNat (b :: bs) / 256 ^ bs.length = b.toNat := by
  have hpos : 0 < 256 ^ bs.length := Nat.lt_of_le_of_lt (Nat.zero_le _) (beNat_lt bs)
  rw [beNat_cons, Nat.mul_comm, Nat.mul_add_div hpos, Nat.div_eq_of_lt (beNat_lt bs), Nat.add_zero]

/-- Of two byte strings of one length only equal ones spell the same number. -/
theorem eq_of_beNat_eq {xs ys : Bytes} (hlen : xs.length = ys.length) (h : beNat xs = beNat ys) : xs = ys := by
  induction xs generalizing ys with
  | nil => exact (List.eq_nil_of_length_eq_zero hlen.symm).symm
  | cons x xs ih =>
    obtain ⟨y, ys, rfl⟩ := List.exists_cons_of_length_eq_add_one hlen.symm
    have hlen' : xs.length = ys.length := Nat.succ.inj hlen
    have hhead : x.toNat = y.toNat := by
      rw [← beNat_cons_div x xs, h, hlen', beNat_cons_div]
    rw [beNat_cons, beNat_cons, hhead, hlen'] at h
    rw [BitVec.eq_of_toNat_eq hhead, ih hlen' (Nat.add_left_cancel h)]

theorem toBe_beNat {n : Nat} {bs : Bytes} (h : bs.length = n) : toBe n (beNat bs) = bs :=
  eq_of_beNat_eq (by rw [toBe_length, h]) (beNat_toBe (beNat_lt_of_length h))

/-! ## Numbers of 16, 32 and 64 bits -/

section
variable {bs : Bytes}

@[simp] theorem be16_tobe16 (v : U16) : be16 (tobe16 v) = v := by
  rw [be16, tobe16, beNat_toBe v.isLt, BitVec.ofNat_toNat, BitVec.setWidth_eq]

@[simp] theorem be32_tobe32 (v : U32) : be32 (tobe32 v) = v := by
  rw [be32, tobe32, beNat_toBe v.isLt, BitVec.ofNat_toNat, BitVec.setWidth_eq]

@[simp] theorem be64_tobe64 (v : U64) : be64 (tobe64 v) = v := by
  rw [be64, tobe64, beNat_toBe v.isLt, BitVec.ofNat_toNat, BitVec.setWidth_eq]

theorem tobe16_be16 (h : bs.length = 2) : tobe16 (be16 bs) = bs := by
  have hlt : beNat bs < 2 ^ 16 := beNat_lt_of_length h
  rw [tobe16, be16, BitVec.toNat_ofNat, Nat.mod_eq_of_lt hlt, toBe_beNat h]

theorem tobe32_be32 (h : bs.length = 4) : tobe32 (be32 bs) = bs := by
  have hlt : beNat bs < 2 ^ 32 := beNat_lt_of_length h
  rw [tobe32, be32, BitVec.toNat_ofNat, Nat.mod_eq_of_lt hlt, toBe_beNat h]

theorem tobe64_be64 (h : bs.length = 8) : tobe64 (be64 bs) = bs := by
  have hlt : beNat bs < 2 ^ 64 := beNat_lt_of_length h
  rw [tobe64, be64, BitVec.toNat_ofNat, Nat.mod_eq_of_lt hlt, toBe_beNat h]

/-- A handle below 2 to the 32 is spelled by its four bytes (log 2). -/
theorem beNat_handleBytes {h : Nat} (hh : h < 2 ^ 32) : beNat (handleBytes h) = h := beNat_toBe (n := 4) hh

theorem handleBytes_beNat (h : bs.length = 4) : handleBytes (beNat bs) = bs := toBe_beNat h

@[simp] theorem handleBytes_length (h : Nat) : (handleBytes h).length = 4 := toBe_length 4 h

end

end Sys2Proof.Machine
end

section
/-! PROOF. Decode of encode (30_encoding.md R90 to R101): the layout of a Family A frame read back, then one line for
each instruction. -/

namespace Sys2Proof.Machine

variable {c : Params}

/-! ## Family A frames -/

/-- The bytes of a frame before its checksum (R90). -/
def frameHead (f : FrameParts) : Bytes := 0xFF#8 :: BitVec.ofNat 8 (2 + f.data.length) :: f.cmd :: f.seq :: f.data

/-- The control payload whose parts are `f` (R90). -/
def framePayload (f : FrameParts) : Bytes := frameHead f ++ f.chk :: f.trail

/-- The data fits the length byte, and the checksum is right where the device checks it (R90, R91). -/
def FrameFits (c : Params) (f : FrameParts) : Prop :=
  f.data.length ≤ 253 ∧ (c.aVerifyChecksum = true → f.chk = sum8 (frameHead f))

/-- The parts of a command's frame: its data are the operands and then the unused bytes. -/
def commandParts (cmd seq : Byte) (ops : Bytes) (t : FrameTail) : FrameParts := ⟨cmd, seq, ops ++ t.extra, t.chk, t.trail⟩

@[simp] theorem commandParts_cmd (cmd seq : Byte) (ops : Bytes) (t : FrameTail) :
    (commandParts cmd seq ops t).cmd = cmd := rfl

@[simp] theorem commandParts_seq (cmd seq : Byte) (ops : Bytes) (t : FrameTail) :
    (commandParts cmd seq ops t).seq = seq := rfl

@[simp] theorem commandParts_data (cmd seq : Byte) (ops : Bytes) (t : FrameTail) :
    (commandParts cmd seq ops t).data = ops ++ t.extra := rfl

@[simp] theorem commandParts_chk (cmd seq : Byte) (ops : Bytes) (t : FrameTail) :
    (commandParts cmd seq ops t).chk = t.chk := rfl

theorem framePrefix_eq_frameHead (cmd seq : Byte) (ops : Bytes) (t : FrameTail) :
    framePrefix cmd seq ops t = frameHead (commandParts cmd seq ops t) := by
  simp [framePrefix, frameHead, commandParts, Nat.add_assoc]

theorem aFrame_eq_framePayload (cmd seq : Byte) (ops : Bytes) (t : FrameTail) :
    aFrame cmd seq ops t = framePayload (commandParts cmd seq ops t) := by
  rw [aFrame, framePrefix_eq_frameHead]
  rfl

theorem commandOk_iff {cmd seq : Byte} {ops : Bytes} {t : FrameTail} :
    commandOk c cmd seq ops t = true ↔ c.family = .a ∧ FrameFits c (commandParts cmd seq ops t) := by
  rw [commandOk, framePrefix_eq_frameHead, frameOk, FrameFits, commandParts_data, commandParts_chk, List.length_append]
  cases c.aVerifyChecksum with
  | false =>
    simp only [Bool.not_false, Bool.true_or, Bool.and_true, Bool.and_eq_true, decide_eq_true_eq, reduceCtorEq,
      false_implies, and_true]
  | true =>
    simp only [Bool.not_true, Bool.false_or, Bool.and_eq_true, decide_eq_true_eq, true_implies, and_assoc]

/-- A marked payload whose length byte counts the command number, the sequence number and `n` data bytes (R90, R91). -/
theorem splitFrame_marked {l cmd seq : Byte} {n : Nat} (hl : l.toNat = n + 2) (rest : Bytes) :
    splitFrame c (0xFF#8 :: l :: cmd :: seq :: rest) =
      if rest.length ≤ n then .error .notWellFramed
      else if c.aVerifyChecksum = true ∧ rest.getD n 0#8 ≠ sum8 (0xFF#8 :: l :: cmd :: seq :: rest.take n) then
        .error .badChecksum
      else .ok ⟨cmd, seq, rest.take n, rest.getD n 0#8, rest.drop (n + 1)⟩ := by
  have hthree : ¬ rest.length + 1 + 1 + 1 + 1 < 3 := by omega
  have htwo : ¬ n + 2 < 2 := by omega
  have hshort : rest.length + 1 + 1 + 1 + 1 < n + 1 + 1 + 1 + 1 + 1 ↔ rest.length ≤ n := by omega
  have hchk : 2 + (n + 2) = n + 1 + 1 + 1 + 1 := by omega
  have htrail : 3 + (n + 2) = n + 1 + 1 + 1 + 1 + 1 := by omega
  simp only [splitFrame, slice, List.getD_cons_zero, List.getD_cons_succ, List.length_cons, hl, hthree, htwo, hshort, hchk,
    htrail, if_false, ne_eq, not_true_eq_false, List.take_succ_cons, List.drop_succ_cons, List.drop_zero,
    Nat.add_sub_cancel]

/-- A frame's parts are read back at the places of R90. -/
theorem splitFrame_framePayload {f : FrameParts} (h : FrameFits c f) : splitFrame c (framePayload f) = .ok f := by
  obtain ⟨hlen, hchk⟩ := h
  have hl : (BitVec.ofNat 8 (2 + f.data.length)).toNat = f.data.length + 2 := by
    rw [BitVec.toNat_ofNat]
    omega
  have hsum : ¬ (c.aVerifyChecksum = true ∧ f.chk ≠ sum8 (frameHead f)) := fun ⟨hv, hne⟩ => hne (hchk hv)
  have hrest : ¬ (f.data ++ f.chk :: f.trail).length ≤ f.data.length := by
    rw [List.length_append, List.length_cons]
    omega
  have htake : (f.data ++ f.chk :: f.trail).take f.data.length = f.data := List.take_left
  have hbyte : (f.data ++ f.chk :: f.trail).getD f.data.length 0#8 = f.chk := by
    rw [List.getD_eq_getElem?_getD, List.getElem?_append_right (Nat.le_refl _), Nat.sub_self, List.getElem?_cons_zero,
      Option.getD_some]
  have hdrop : (f.data ++ f.chk :: f.trail).drop (f.data.length + 1) = f.trail := by
    rw [← List.drop_drop, List.drop_left, List.drop_succ_cons, List.drop_zero]
  refine (splitFrame_marked hl (f.data ++ f.chk :: f.trail)).trans ?_
  rw [if_neg hrest, htake, hbyte, hdrop]
  exact if_neg hsum

theorem ite_error_eq_ok {α : Type} {q : Prop} [Decidable q] {e : Reject} {x : Except Reject α} {a : α} :
    (if q then .error e else x) = .ok a ↔ ¬q ∧ x = .ok a := by
  by_cases hq : q
  · simp only [hq, if_true, reduceCtorEq, not_true_eq_false, false_and]
  · simp only [hq, if_false, not_false_eq_true, true_and]

/-- A payload that splits has the marker, a length byte and at least as many bytes as that says (R91). -/
theorem splitFrame_ok_marked {p : Bytes} {f : FrameParts} (h : splitFrame c p = .ok f) :
    ∃ l cmd seq rest n, p = 0xFF#8 :: l :: cmd :: seq :: rest ∧ l.toNat = n + 2 := by
  simp only [splitFrame, ite_error_eq_ok] at h
  obtain ⟨-, hmark, hl, hlen, -⟩ := h
  have hfive : 5 ≤ p.length := by omega
  match p with
  | m :: l :: cmd :: seq :: rest =>
    obtain rfl : m = 0xFF#8 := Decidable.not_not.1 hmark
    exact ⟨l, cmd, seq, rest, l.toNat - 2, rfl, (Nat.sub_add_cancel (Nat.le_of_not_lt hl)).symm⟩
  | [_, _, _] | [_, _] | [_] | [] =>
    simp only [List.length_cons, List.length_nil, Nat.reduceAdd, Nat.reduceLeDiff] at hfive

/-- A payload that splits is the frame of its parts (R90, R91). -/
theorem splitFrame_ok {p : Bytes} {f : FrameParts} (h : splitFrame c p = .ok f) : FrameFits c f ∧ p = framePayload f := by
  obtain ⟨l, cmd, seq, rest, n, rfl, hl⟩ := splitFrame_ok_marked h
  rw [splitFrame_marked hl, ite_error_eq_ok, ite_error_eq_ok] at h
  obtain ⟨hlen, hchk, hf⟩ := h
  obtain rfl := Except.ok.inj hf
  have hn : n < rest.length := Nat.lt_of_not_le hlen
  have hdata : (rest.take n).length = n := List.length_take_of_le (Nat.le_of_lt hn)
  have hbyte : BitVec.ofNat 8 (2 + n) = l := by
    rw [Nat.add_comm, ← hl, BitVec.ofNat_toNat, BitVec.setWidth_eq]
  have hrest : rest.take n ++ rest.getD n 0#8 :: rest.drop (n + 1) = rest := by
    rw [List.getD_eq_getElem?_getD, List.getElem?_eq_getElem hn, Option.getD_some, ← List.drop_eq_getElem_cons hn,
      List.take_append_drop]
  refine ⟨⟨?_, fun hv => ?_⟩, ?_⟩
  · have := l.isLt
    exact Nat.le_trans (Nat.le_of_eq hdata) (by omega)
  · rw [frameHead, hdata, hbyte]
    exact Decidable.not_not.1 fun hne => hchk ⟨hv, hne⟩
  · simp only [framePayload, frameHead, hdata, hbyte, List.cons_append, hrest]

/-! ## Commands read back -/

/-- A Family A command's frame reaches the command table with its parts (R90, R92). -/
theorem decode_aFrame {cmd seq : Byte} {ops : Bytes} {t : FrameTail} (h : commandOk c cmd seq ops t = true) :
    decode c (dispatched (aFrame cmd seq ops t)) = decodeCommandA (commandParts cmd seq ops t) := by
  obtain ⟨hf, hfits⟩ := commandOk_iff.1 h
  simp only [decode, dispatched, decodeCommand, hf, aFrame_eq_framePayload, splitFrame_framePayload hfits, if_true]

/-- A row of R92 takes the operands off the data and leaves the rest to the tail. -/
@[simp] theorem withOperands_commandParts {cmd seq : Byte} {ops : Bytes} {n : Nat} (hn : ops.length = n) (t : FrameTail)
    (mk : Bytes → FrameTail → Instr) : withOperands (commandParts cmd seq ops t) n mk = .ok (mk ops t) := by
  subst hn
  simp [withOperands, commandParts]

/-- A Family B payload of its character's length reaches the operands (R96, R97). -/
theorem decode_bPayload {ch : Byte} {d : Bytes} {n : Nat} (hf : c.family = .b) (hch : lenB c ch = some n)
    (hlen : d.length + 1 = n) : decode c (dispatched (ch :: d)) = operandsB ch d := by
  simp only [decode, dispatched, decodeCommand, hf, decodeCommandB, hch, hlen, if_true]

/-! ## Requests at the ports -/

@[simp] theorem decode_unit (op : Byte) (d : Bytes) : decode c ⟨.unit, op :: d⟩ = decodeUnit c op d := rfl

@[simp] theorem decode_management (op : Byte) (d : Bytes) :
    decode c ⟨.management, op :: d⟩ = decodeManagement c op d := rfl

/-! ## The round trip -/

/-- Settles O1: an instruction's own row of the tables reads its operands back. -/
theorem decodeOfEncode : Obligations.DecodeOfEncode := by
  intro c i h
  cases i with
  | aActivate seq t | aNextRandom seq t | aBlank90 seq t | aBlank91 seq t | aBlank92 seq t | aBlank93 seq t
  | aBlank94 seq t | aBlank95 seq t | aBlank96 seq t | aPresentFigures seq t | aBlankB5 seq t | aQueryBlock seq sel blk t
  | aFigureId seq sel t | aSeed seq x t =>
    exact (decode_aFrame h).trans (by simp [decodeCommandA])
  | aWriteBlock seq sel blk v t =>
    obtain ⟨hv, hframe⟩ := Bool.and_eq_true_iff.1 h
    exact (decode_aFrame hframe).trans (by simp [decodeCommandA, of_decide_eq_true hv])
  | bActivate arg ex | bLedC r g b ex | bLedL zone r g b ex | bQueryBlock sb blk ex | bReady x ex | bStatus ex
  | bVersion b1 b2 b3 ex =>
    simp only [WellFormed, Bool.and_eq_true, decide_eq_true_eq] at h
    obtain ⟨hf, hlen⟩ := h
    refine (decode_bPayload hf rfl ?_).trans (by simp [operandsB, needOperands])
    simp only [List.length_cons, ← hlen, Nat.add_comm _ ex.length, Nat.add_assoc, Nat.reduceAdd]
  | bLedJ zone v ex | bWriteBlock sb blk v ex =>
    simp only [WellFormed, Bool.and_eq_true, decide_eq_true_eq] at h
    obtain ⟨⟨hf, hv⟩, hlen⟩ := h
    refine (decode_bPayload hf rfl ?_).trans (by simp [operandsB, needOperands, slice, hv])
    simp only [List.length_cons, List.length_append, ← hlen, hv]
    omega
  | aPoll p | aIdlePoll p | bPoll p | bAudioEcho p | bStatusFrame p | bQueuedReply p => rfl
  | checksum bs | crc32 bs | findByName name => rfl
  | getNext | allEntries | isActivated | activate | deactivate => rfl
  | getPresentFigures seq | getFigureIdentifier sel seq => rfl
  | controlTransfer p | interruptPoll p | cancelTransfer | bulkTransfer p | isochronousTransfer p => rfl
  | generateSeed seed | scramble value garbage | descramble x | findByNumericId id =>
    simp [encode, decodeUnit, exactly]
  | deriveKey uid | encryptBlock key pt | decryptBlock key ct | queryBlockA sel blk seq | queryBlockB slot blk
  | writeBlockA sel blk v seq | writeBlockB slot blk v =>
    simp only [WellFormed, Bool.and_eq_true, decide_eq_true_eq] at h
    simp [encode, decodeUnit, exactly, slice, h]
  | loadFigureA slot handle blob | loadFigureB slot handle blob =>
    simp only [WellFormed, Bool.and_eq_true, decide_eq_true_eq] at h
    obtain ⟨hf, hhandle⟩ := h
    simp [encode, decodeManagement, atLeast, slice, hf, beNat_handleBytes hhandle]
  | removeFigureA slot | removeFigureB slot =>
    simp only [WellFormed, decide_eq_true_eq] at h
    simp [encode, decodeManagement, exactly, h]
  | createFigure handle id | createFigureB handle id =>
    simp only [WellFormed, Bool.and_eq_true, decide_eq_true_eq] at h
    obtain ⟨hf, hhandle⟩ := h
    simp [encode, decodeManagement, exactly, hf, beNat_handleBytes hhandle]

end Sys2Proof.Machine
end

section
/-! PROOF. Encode of decode (30_encoding.md R90 to R101): each row of the decoder's tables gives an instruction whose
encoded form is the request, and which is well-formed on the device. -/

namespace Sys2Proof.Machine

/-- The instruction is well-formed and the code is its encoded form. -/
def Encodes (c : Params) (k : Code) (i : Instr) : Prop := encode i = k ∧ WellFormed c i = true

variable {c : Params} {d : Bytes}

/-! ## One row of a table

A table is a chain of `if`; `hy` is what is shown of the rows below. A row's own hypothesis names the operand bytes, so
that its proof can match on them and find the encoder's bytes in place. -/

section
variable {e : Entry} {op w : Byte} {n : Nat} {i : Instr} {y : Except Reject Instr}

theorem encodes_row {x : Except Reject Instr} (hx : Yields (Encodes c ⟨e, w :: d⟩) x)
    (hy : Yields (Encodes c ⟨e, op :: d⟩) y) : Yields (Encodes c ⟨e, op :: d⟩) (if op = w then x else y) :=
  .ite_cond (fun h => h.symm ▸ hx) fun _ => hy

/-- An op whose operands are `n` bytes (log 2). -/
theorem encodes_exactly_row (hi : d.length = n → Encodes c ⟨e, w :: d⟩ i) (hy : Yields (Encodes c ⟨e, op :: d⟩) y) :
    Yields (Encodes c ⟨e, op :: d⟩) (if op = w then exactly n d i else y) := encodes_row (.exactly_length hi) hy

theorem exists_append_of_le_length (h : n ≤ d.length) : ∃ ops bs, ops.length = n ∧ d = ops ++ bs :=
  ⟨d.take n, d.drop n, List.length_take_of_le h, (List.take_append_drop n d).symm⟩

/-- An op whose operands are `n` bytes and a byte string (log 2). -/
theorem encodes_atLeast_row (hi : ∀ ops bs, ops.length = n → d = ops ++ bs → Encodes c ⟨e, w :: d⟩ i)
    (hy : Yields (Encodes c ⟨e, op :: d⟩) y) : Yields (Encodes c ⟨e, op :: d⟩) (if op = w then atLeast n d i else y) := by
  refine encodes_row (.ite_cond (fun hd => .ok ?_) fun _ => .error _) hy
  obtain ⟨ops, bs, hops, hsplit⟩ := exists_append_of_le_length hd
  exact hi ops bs hops hsplit

/-- A Family B command whose operands are the first `n` bytes after the character (R97). -/
theorem encodes_needOperands_row (hlen : lenB c op = some (d.length + 1))
    (hi : ∀ ops ex, ops.length = n → lenB c w = some (n + ex.length + 1) → d = ops ++ ex →
      Encodes c (dispatched (w :: d)) i)
    (hy : Yields (Encodes c (dispatched (op :: d))) y) :
    Yields (Encodes c (dispatched (op :: d))) (if op = w then needOperands n d i else y) := by
  refine .ite_cond (fun hw => .needOperands_length fun hd => ?_) fun _ => hy
  obtain ⟨ops, ex, hops, hsplit⟩ := exists_append_of_le_length hd
  rw [hw, hsplit, List.length_append, hops] at hlen
  exact hw ▸ hi ops ex hops hlen hsplit

/-- A Family A command whose operands are the first `n` data bytes of its frame (R92). -/
theorem encodes_withOperands_row {f : FrameParts} {mk : Bytes → FrameTail → Instr} (hf : c.family = .a)
    (hfits : FrameFits c f)
    (hmk : ∀ ops t, ops.length = n → commandOk c w f.seq ops t = true →
      Encodes c (dispatched (aFrame w f.seq ops t)) (mk ops t))
    (hy : Yields (Encodes c (dispatched (framePayload f))) y) :
    Yields (Encodes c (dispatched (framePayload f))) (if f.cmd = w then withOperands f n mk else y) := by
  refine .ite_cond (fun hw => .ite_cond (fun _ => .error _) fun hn => .ok ?_) fun _ => hy
  have hparts : commandParts w f.seq (f.data.take n) ⟨f.data.drop n, f.chk, f.trail⟩ = f := by
    rw [commandParts, List.take_append_drop, ← hw]
  have hrow := hmk (f.data.take n) ⟨f.data.drop n, f.chk, f.trail⟩ (List.length_take_of_le (Nat.le_of_not_lt hn))
  rw [commandOk_iff, aFrame_eq_framePayload, hparts] at hrow
  exact hrow ⟨hf, hfits⟩

end

/-! ## Family A commands -/

/-- The scrambled seed is its eight bytes (R98). -/
theorem aSeed_encodes {seq : Byte} {ops : Bytes} {t : FrameTail} (hops : ops.length = 8)
    (h : commandOk c 0x81#8 seq ops t = true) :
    Encodes c (dispatched (aFrame 0x81#8 seq ops t)) (.aSeed seq (be64 ops) t) := by
  rw [Encodes, encode, WellFormed, tobe64_be64 hops]
  exact ⟨rfl, h⟩

theorem aWriteBlock_encodes {seq : Byte} {ops : Bytes} {t : FrameTail} (hops : ops.length = 18)
    (h : commandOk c 0xA3#8 seq ops t = true) : Encodes c (dispatched (aFrame 0xA3#8 seq ops t))
      (.aWriteBlock seq (ops.getD 0 0#8) (ops.getD 1 0#8) (ops.drop 2) t) := by
  match ops with
  | sel :: blk :: v =>
    have hv : v.length = 16 := Nat.succ.inj (Nat.succ.inj hops)
    exact ⟨rfl, Bool.and_eq_true_iff.2 ⟨decide_eq_true hv, h⟩⟩

/-- The 15 rows of R92. -/
theorem decodeCommandA_encodes {f : FrameParts} (hf : c.family = .a) (hfits : FrameFits c f) :
    Yields (Encodes c (dispatched (framePayload f))) (decodeCommandA f) := by
  unfold decodeCommandA
  refine encodes_withOperands_row hf hfits (fun | [], _, _, h => ⟨rfl, h⟩) ?_
  refine encodes_withOperands_row hf hfits (fun _ _ hops h => aSeed_encodes hops h) ?_
  iterate 9 refine encodes_withOperands_row hf hfits (fun | [], _, _, h => ⟨rfl, h⟩) ?_
  refine encodes_withOperands_row hf hfits (fun | [_, _], _, _, h => ⟨rfl, h⟩) ?_
  refine encodes_withOperands_row hf hfits (fun _ _ hops h => aWriteBlock_encodes hops h) ?_
  refine encodes_withOperands_row hf hfits (fun | [_], _, _, h => ⟨rfl, h⟩) ?_
  refine encodes_withOperands_row hf hfits (fun | [], _, _, h => ⟨rfl, h⟩) ?_
  exact .error _

/-! ## Family B commands -/

theorem decide_and_decide {p q : Prop} [Decidable p] [Decidable q] (hp : p) (hq : q) :
    (decide p && decide q) = true := Bool.and_eq_true_iff.2 ⟨decide_eq_true hp, decide_eq_true hq⟩

/-- A Family B payload has the length that its command's well-formedness asks for (R96). -/
theorem lengthB_eq {l n m : Nat} (h : some l = some (n + m + 1)) : n + 1 + m = l := by
  rw [Option.some.inj h, Nat.add_right_comm]

theorem lengthB_ok {l n m : Nat} (hf : c.family = .b) (h : some l = some (n + m + 1)) :
    (decide (c.family = .b) && decide (n + 1 + m = l)) = true := decide_and_decide hf (lengthB_eq h)

theorem bLedJ_encodes {ops ex : Bytes} (hf : c.family = .b) (hops : ops.length = 6)
    (h : lenB c 0x4A#8 = some (6 + ex.length + 1)) :
    Encodes c (dispatched (0x4A#8 :: (ops ++ ex)))
      (.bLedJ ((ops ++ ex).getD 0 0#8) (slice (ops ++ ex) 1 5) ((ops ++ ex).drop 6)) := by
  obtain ⟨zone, v, rfl⟩ := List.exists_cons_of_length_eq_add_one hops
  have hv : v.length = 5 := Nat.succ.inj hops
  have hl : 7 + ex.length = c.lengthsB.ledJ := lengthB_eq h
  simp [Encodes, encode, WellFormed, slice, hf, hv, hl]

theorem bWriteBlock_encodes {ops ex : Bytes} (hf : c.family = .b) (hops : ops.length = 18)
    (h : lenB c 0x57#8 = some (18 + ex.length + 1)) :
    Encodes c (dispatched (0x57#8 :: (ops ++ ex)))
      (.bWriteBlock ((ops ++ ex).getD 0 0#8) ((ops ++ ex).getD 1 0#8) (slice (ops ++ ex) 2 16) ((ops ++ ex).drop 18)) := by
  match ops with
  | sb :: blk :: v =>
    have hv : v.length = 16 := Nat.succ.inj (Nat.succ.inj hops)
    have hl : 19 + ex.length = c.lengthsB.write := lengthB_eq h
    simp [Encodes, encode, WellFormed, slice, hf, hv, hl]

/-- The nine rows of R97; 'S', the seventh, has no operands. -/
theorem operandsB_encodes {ch : Byte} (hf : c.family = .b) (hlen : lenB c ch = some (d.length + 1)) :
    Yields (Encodes c (dispatched (ch :: d))) (operandsB ch d) := by
  unfold operandsB
  refine encodes_needOperands_row hlen (fun | [_], _, _, h, hd => hd ▸ ⟨rfl, lengthB_ok hf h⟩) ?_
  refine encodes_needOperands_row hlen (fun | [_, _, _], _, _, h, hd => hd ▸ ⟨rfl, lengthB_ok hf h⟩) ?_
  refine encodes_needOperands_row hlen (fun _ _ hops h hd => hd ▸ bLedJ_encodes hf hops h) ?_
  refine encodes_needOperands_row hlen (fun | [_, _, _, _], _, _, h, hd => hd ▸ ⟨rfl, lengthB_ok hf h⟩) ?_
  refine encodes_needOperands_row hlen (fun | [_, _], _, _, h, hd => hd ▸ ⟨rfl, lengthB_ok hf h⟩) ?_
  refine encodes_needOperands_row hlen (fun | [_], _, _, h, hd => hd ▸ ⟨rfl, lengthB_ok hf h⟩) ?_
  refine .ite_cond (fun hch => .ok ?_) fun _ => ?_
  · subst hch
    exact ⟨rfl, lengthB_ok hf (n := 0) (by rwa [Nat.zero_add])⟩
  refine encodes_needOperands_row hlen (fun | [_, _, _], _, _, h, hd => hd ▸ ⟨rfl, lengthB_ok hf h⟩) ?_
  refine encodes_needOperands_row hlen (fun _ _ hops h hd => hd ▸ bWriteBlock_encodes hf hops h) ?_
  exact .error _

/-- A control payload that holds a command is that command's encoded form (R90, R96). -/
theorem decodeCommand_encodes (c : Params) (p : Bytes) : Yields (Encodes c (dispatched p)) (decodeCommand c p) := by
  unfold decodeCommand
  split
  next hf =>
    split
    next => exact .error _
    next f hsplit =>
      obtain ⟨hfits, rfl⟩ := splitFrame_ok hsplit
      exact decodeCommandA_encodes hf hfits
  next hf =>
    unfold decodeCommandB
    split
    next => exact .error _
    next ch d =>
      split
      next => exact .error _
      next n hch => exact .ite_cond (fun hn => operandsB_encodes hf (hn ▸ hch)) fun _ => .error _

/-! ## Port requests -/

theorem decodeHost_encodes (c : Params) (op : Byte) (d : Bytes) : Yields (Encodes c ⟨.host, op :: d⟩) (decodeHost op d) :=
  encodes_row (.ok ⟨rfl, rfl⟩) <| encodes_row (.ok ⟨rfl, rfl⟩) <|
    encodes_exactly_row (fun hd => match d, hd with | [], _ => ⟨rfl, rfl⟩) <|
    encodes_row (.ok ⟨rfl, rfl⟩) <| encodes_row (.ok ⟨rfl, rfl⟩) (.error _)

/-- The bytes of op 0x30 (R196, R197): slot, handle, and the file's bytes. -/
theorem loadFigure_bytes {ops blob : Bytes} (hops : ops.length = 5) (hd : d = ops ++ blob) :
    d.getD 0 0#8 :: (handleBytes (beNat (slice d 1 4)) ++ d.drop 5) = d ∧ beNat (slice d 1 4) < 2 ^ 32 := by
  obtain ⟨slot, hb, rfl⟩ := List.exists_cons_of_length_eq_add_one hops
  have hhb : hb.length = 4 := Nat.succ.inj hops
  have hslice : slice d 1 4 = hb := by simp [hd, slice, hhb]
  rw [hslice, handleBytes_beNat hhb, hd]
  exact ⟨by simp [hhb], beNat_lt_of_length hhb⟩

/-- The bytes of op 0x32 (R201, R203): handle and numeric id. -/
theorem createFigure_bytes (hd : d.length = 6) :
    handleBytes (beNat (d.take 4)) ++ tobe16 (be16 (d.drop 4)) = d ∧ beNat (d.take 4) < 2 ^ 32 := by
  have hhb : (d.take 4).length = 4 := List.length_take_of_le (by omega)
  have hid : (d.drop 4).length = 2 := by rw [List.length_drop, hd]
  rw [handleBytes_beNat hhb, tobe16_be16 hid, List.take_append_drop]
  exact ⟨rfl, beNat_lt_of_length hhb⟩

/-- The three rows of R101's management requests, which are the same bytes on either family. -/
theorem decodeManagement_encodes (c : Params) (op : Byte) (d : Bytes) :
    Yields (Encodes c ⟨.management, op :: d⟩) (decodeManagement c op d) := by
  unfold decodeManagement
  cases hf : c.family with
  | a | b =>
    refine encodes_atLeast_row (fun ops blob hops hd => ?_) ?_
    · obtain ⟨hbytes, hlt⟩ := loadFigure_bytes hops hd
      exact ⟨by rw [encode, hbytes], decide_and_decide hf hlt⟩
    refine encodes_exactly_row (fun hd => match d, hd with | [_], _ => ⟨rfl, decide_eq_true hf⟩) ?_
    refine encodes_exactly_row (fun hd => ?_) (.error _)
    obtain ⟨hbytes, hlt⟩ := createFigure_bytes hd
    exact ⟨by rw [encode, hbytes], decide_and_decide hf hlt⟩

theorem writeBlockA_encodes (hf : c.family = .a) (hd : d.length = 19) :
    Encodes c ⟨.unit, 0x28#8 :: d⟩ (.writeBlockA (d.getD 0 0#8) (d.getD 1 0#8) (slice d 2 16) (d.getD 18 0#8)) := by
  obtain ⟨ops, last, hops, rfl⟩ := exists_append_of_le_length (n := 18) (d := d) (by omega)
  obtain ⟨seq, rfl⟩ : ∃ seq, last = [seq] := List.length_eq_one_iff.1 (by rw [List.length_append] at hd; omega)
  match ops with
  | sel :: blk :: v =>
    have hv : v.length = 16 := Nat.succ.inj (Nat.succ.inj hops)
    simp [Encodes, encode, WellFormed, slice, hf, hv]

theorem writeBlockB_encodes (hf : c.family = .b) (hd : d.length = 18) :
    Encodes c ⟨.unit, 0x28#8 :: d⟩ (.writeBlockB (d.getD 0 0#8) (d.getD 1 0#8) (d.drop 2)) := by
  match d with
  | slot :: blk :: v => exact ⟨rfl, decide_and_decide hf (Nat.succ.inj (Nat.succ.inj hd))⟩

/-- The 19 rows of R101's sub-unit calls; ops 0x27 and 0x28 have a row for each family. -/
theorem decodeUnit_encodes (c : Params) (op : Byte) (d : Bytes) :
    Yields (Encodes c ⟨.unit, op :: d⟩) (decodeUnit c op d) := by
  unfold decodeUnit
  refine encodes_exactly_row (fun hd => ⟨rfl, decide_eq_true hd⟩) ?_
  iterate 2 refine encodes_exactly_row (fun hd => by simp [Encodes, encode, WellFormed, hd]) ?_
  iterate 2 refine encodes_row (.ok ⟨rfl, rfl⟩) ?_
  refine encodes_exactly_row (fun hd => ⟨by rw [encode, tobe32_be32 hd], rfl⟩) ?_
  refine encodes_exactly_row (fun hd => match d, hd with | [], _ => ⟨rfl, rfl⟩) ?_
  refine encodes_exactly_row (fun hd => ⟨?_, rfl⟩) ?_
  · have hvalue : (d.take 4).length = 4 := List.length_take_of_le (by omega)
    have hgarbage : (d.drop 4).length = 4 := by rw [List.length_drop, hd]
    rw [encode, tobe32_be32 hvalue, tobe32_be32 hgarbage, List.take_append_drop]
  refine encodes_exactly_row (fun hd => ⟨by rw [encode, tobe64_be64 hd], rfl⟩) ?_
  refine encodes_exactly_row (fun hd => ⟨by rw [encode, tobe16_be16 hd], rfl⟩) ?_
  refine encodes_row (.ok ⟨rfl, rfl⟩) ?_
  iterate 4 refine encodes_exactly_row (fun hd => match d, hd with | [], _ => ⟨rfl, rfl⟩) ?_
  refine encodes_exactly_row (fun hd => match d, hd with | [_], _ => ⟨rfl, rfl⟩) ?_
  refine encodes_row ?_ (encodes_row ?_ ?_)
  · cases hf : c.family with
    | a => exact .exactly_length fun hd => match d, hd with | [_, _, _], _ => ⟨rfl, decide_eq_true hf⟩
    | b => exact .exactly_length fun hd => match d, hd with | [_, _], _ => ⟨rfl, decide_eq_true hf⟩
  · cases hf : c.family with
    | a => exact .exactly_length fun hd => writeBlockA_encodes hf hd
    | b => exact .exactly_length fun hd => writeBlockB_encodes hf hd
  exact encodes_exactly_row (fun hd => match d, hd with | [_, _], _ => ⟨rfl, rfl⟩) (.error _)

theorem decodePort_encodes (c : Params) {e : Entry} (he : e ≠ .dispatcher) (op : Byte) (d : Bytes) :
    Yields (Encodes c ⟨e, op :: d⟩) (decodePort c e op d) := by
  cases e with
  | host => exact decodeHost_encodes c op d
  | management => exact decodeManagement_encodes c op d
  | unit => exact decodeUnit_encodes c op d
  | dispatcher => exact absurd rfl he
  | pollA | idlePollA | pollB | audioEchoB | statusFrameB | queuedReplyB =>
    exact encodes_row (.ok ⟨rfl, rfl⟩) (.error _)

/-- Settles O2: every row of every table encodes back to the bytes it was read from. -/
theorem encodeOfDecode : Obligations.EncodeOfDecode := by
  rintro c ⟨e, bytes⟩ i h
  by_cases he : e = .dispatcher
  · subst he
    exact decodeCommand_encodes c bytes i h
  · obtain ⟨op, d, rfl, hport⟩ := decode_port_ok he h
    exact decodePort_encodes c he op d i hport

end Sys2Proof.Machine
end

section
/-! PROOF. Sample words (95_test_vectors.md section 2, 30_encoding.md R101): each is the encoded form of its instruction. -/

namespace Sys2Proof.Machine

variable {c : Params}

/-- Where no checksum is verified, a frame is well-formed once its data fits the length byte (R90, R91). -/
theorem commandOk_of_no_checksum {cmd seq : Byte} {ops : Bytes} {t : FrameTail} (hf : c.family = .a)
    (hv : c.aVerifyChecksum = false) (h : ops.length + t.extra.length ≤ 253) : commandOk c cmd seq ops t = true := by
  simp [commandOk, frameOk, hf, hv, h]

/-- Bytes that are a well-formed instruction's encoded form decode to it. -/
theorem Encodes.decode_eq {k : Code} {i : Instr} (h : Encodes c k i) : decode c k = .ok i := by
  obtain ⟨rfl, hwf⟩ := h
  exact decodeOfEncode c i hwf

/-- Settles O3: the words are encoded forms, so they decode by the round trip. -/
theorem sampleWordsDecode : Obligations.SampleWordsDecode := by
  intro c hv hlen
  refine ⟨fun hf => ⟨?_, ?_, ?_, ?_, ?_⟩, fun hf => ⟨?_, ?_, ?_⟩, ?_, ?_⟩
  iterate 4 exact Encodes.decode_eq ⟨by decide, commandOk_of_no_checksum hf hv (by decide)⟩
  · exact Encodes.decode_eq ⟨rfl, decide_eq_true hf⟩
  iterate 3 exact Encodes.decode_eq ⟨rfl, by simp [WellFormed, hf, hlen]⟩
  iterate 2 exact Encodes.decode_eq ⟨rfl, rfl⟩

end Sys2Proof.Machine
end

section
/-! PROOF. The crypto engine, the checksum unit and the CRC32 unit (40_crypto.md R130 to R138): each call answers its value
and leaves the rest of the state as it was. -/

namespace Sys2Proof.Machine

/-! ## What each call answers -/

theorem exec_deriveKey (uid : Bytes) (s : State) :
    exec (.deriveKey uid) s = .next (s.ends (.bytes (deriveKeyOp s.cfg uid))) := rfl

theorem exec_encryptBlock (key pt : Bytes) (s : State) :
    exec (.encryptBlock key pt) s = .next (s.ends (.bytes (cipherEncrypt s.cfg key pt))) := rfl

theorem exec_decryptBlock (key ct : Bytes) (s : State) :
    exec (.decryptBlock key ct) s = .next (s.ends (.bytes (cipherDecrypt s.cfg key ct))) := rfl

theorem exec_checksum (bs : Bytes) (s : State) :
    exec (.checksum bs) s = .next (s.ends (.byte (sum8 bs))) := rfl

theorem exec_crc32 (bs : Bytes) (s : State) :
    exec (.crc32 bs) s = .next (s.ends (.word (crcBytes s.cfg.crcInit bs ^^^ s.cfg.crcXorOut))) := rfl

/-! ## The derived key -/

@[simp] theorem sha1_length (msg : Bytes) : (sha1 msg).length = 20 := by
  simp only [sha1, List.length_append, tobe32_length]

/-- A digest has 160 bits, whatever HASH160 is (R131, log 19). -/
@[simp] theorem hash160_length (c : Params) (msg : Bytes) : (hash160 c msg).length = 20 := by
  unfold hash160
  split
  · exact sha1_length msg
  · exact Vector.length_toList

/-- Byte `k` of the reassembled words is byte `3 - k % 4` of the same word (R133). -/
theorem reverseWords_take {n : Nat} {bs : Bytes} (h : 4 * n ≤ bs.length) :
    reverseWords (bs.take (4 * n)) = (List.range (4 * n)).map fun k => bs.getD (4 * (k / 4) + 3 - k % 4) 0#8 := by
  induction n generalizing bs with
  | zero => rfl
  | succ n ih =>
    match bs, h with
    | a :: b :: c :: d :: rest, h =>
      have hrest : 4 * n ≤ rest.length := by simpa [Nat.mul_succ] using h
      have hindex (k : Nat) : 4 * ((4 + k) / 4) + 3 - (4 + k) % 4 = 4 * (k / 4) + 3 - k % 4 + 4 := by omega
      rw [Nat.mul_succ, Nat.add_comm (4 * n) 4, List.range_add, List.map_append, List.map_map]
      simp only [Nat.add_comm 4 (4 * n), List.take_succ_cons, reverseWords, ih hrest, Function.comp_def, hindex,
        List.getD_cons_succ]
      rfl

/-- The derived key, byte by byte (R131, R133). -/
theorem deriveKeyOp_eq (c : Params) (uid : Bytes) :
    deriveKeyOp c uid =
      (List.range 16).map fun k => (hash160 c (c.kdfConst.toList ++ uid)).getD (4 * (k / 4) + 3 - k % 4) 0#8 :=
  reverseWords_take (n := 4) (by rw [hash160_length]; decide)

/-- Settles O36: the digest is long enough for its four words, and the worked example is computed. -/
theorem deriveKey : Obligations.DeriveKey := by
  refine ⟨fun uid s => ?_, fun s hkdf hhash => ?_⟩
  · rw [exec_deriveKey, deriveKeyOp_eq]
    rfl
  · have hkey : deriveKeyOp s.cfg (zeros 7) = reverseWords ((sha1 (zeros 38)).take 16) := by
      rw [deriveKeyOp, hkdf, hash160, hhash]
      rfl
    have hvalue : reverseWords ((sha1 (zeros 38)).take 16) =
        [0x08#8, 0xC9#8, 0x76#8, 0xD5#8, 0x02#8, 0xD0#8, 0x3E#8, 0xB4#8, 0x57#8, 0x25#8, 0xD1#8, 0x3C#8,
          0x20#8, 0x1F#8, 0x83#8, 0xD5#8] := by decide +kernel
    rw [exec_deriveKey, hkey, hvalue]
    rfl

/-! ## AES-128 -/

/-- Every round key is a block. -/
theorem length_of_mem_roundKeysFrom {rcs : List Byte} {key k : Bytes} (hkey : key.length = 16)
    (h : k ∈ roundKeysFrom key rcs) : k.length = 16 := by
  induction rcs generalizing key with
  | nil => cases h
  | cons rc rcs ih =>
    obtain rfl | h := List.mem_cons.1 h
    · exact length_nextRoundKey rc hkey
    · exact ih (length_nextRoundKey rc hkey) h

theorem length_of_mem_roundKeys {key : Bytes} (hkey : key.length = 16) : ∀ k ∈ roundKeys key, k.length = 16 :=
  fun _ => length_of_mem_roundKeysFrom hkey

/-- A round but the last one gives a block. -/
theorem length_xorBytes_mixColumns {s k : Bytes} (hk : k.length = 16) :
    (xorBytes (mixColumns (shiftRows s)) k).length = 16 := by
  rw [length_xorBytes, length_mixColumns (length_shiftRows s), hk, Nat.min_self]

/-- The last round backwards undoes it. -/
theorem invSbox_invShiftRows_lastRound {s k : Bytes} (hs : s.length = 16) (hk : k.length = 16) :
    (invShiftRows (xorBytes (xorBytes (shiftRows (s.map sbox)) k) k)).map invSbox = s := by
  rw [xorBytes_xorBytes (by rw [length_shiftRows, hk]), invShiftRows_shiftRows (by rw [List.length_map, hs]),
    map_invSbox_map_sbox]

/-- An earlier round backwards undoes it. -/
theorem invSbox_invShiftRows_round {s k : Bytes} (hs : s.length = 16) (hk : k.length = 16) :
    (invShiftRows (invMixColumns (xorBytes (xorBytes (mixColumns (shiftRows (s.map sbox))) k) k))).map invSbox = s := by
  have hshift : (shiftRows (s.map sbox)).length = 16 := length_shiftRows _
  rw [xorBytes_xorBytes (by rw [length_mixColumns hshift, hk]), invMixColumns_mixColumns hshift,
    invShiftRows_shiftRows (by rw [List.length_map, hs]), map_invSbox_map_sbox]

theorem length_aesRounds {ks : List Bytes} {s : Bytes} (hks : ∀ k ∈ ks, k.length = 16) (hs : s.length = 16) :
    (aesRounds ks s).length = 16 := by
  induction ks generalizing s with
  | nil => exact hs
  | cons k ks ih =>
    obtain ⟨hk, hks⟩ := List.forall_mem_cons.1 hks
    cases ks with
    | nil => rw [aesRounds, length_xorBytes, length_shiftRows, hk, Nat.min_self]
    | cons k' ks => exact ih hks (length_xorBytes_mixColumns hk)

theorem length_aesInvRounds {ks : List Bytes} {s : Bytes} (hs : s.length = 16) : (aesInvRounds ks s).length = 16 := by
  match ks with
  | [] => exact hs
  | [_] | _ :: _ :: _ => rfl

/-- The rounds of the inverse cipher undo those of the cipher, the last round first. -/
theorem aesInvRounds_aesRounds {ks : List Bytes} {s : Bytes} (hks : ∀ k ∈ ks, k.length = 16) (hs : s.length = 16) :
    aesInvRounds ks (aesRounds ks s) = s := by
  induction ks generalizing s with
  | nil => rfl
  | cons k ks ih =>
    obtain ⟨hk, hks⟩ := List.forall_mem_cons.1 hks
    cases ks with
    | nil => exact invSbox_invShiftRows_lastRound hs hk
    | cons k' ks =>
      simp only [aesRounds, aesInvRounds]
      rw [ih hks (length_xorBytes_mixColumns hk), invSbox_invShiftRows_round hs hk]

section
variable {key b : Bytes}

theorem length_aesEncrypt (hk : key.length = 16) (hb : b.length = 16) : (aesEncrypt key b).length = 16 :=
  length_aesRounds (length_of_mem_roundKeys hk) (by rw [length_xorBytes, hb, hk, Nat.min_self])

theorem length_aesDecrypt (hk : key.length = 16) (hb : b.length = 16) : (aesDecrypt key b).length = 16 := by
  rw [aesDecrypt, length_xorBytes, length_aesInvRounds hb, hk, Nat.min_self]

theorem aesDecrypt_aesEncrypt (hk : key.length = 16) (hb : b.length = 16) : aesDecrypt key (aesEncrypt key b) = b := by
  have hstart : (xorBytes b key).length = 16 := by rw [length_xorBytes, hb, hk, Nat.min_self]
  rw [aesDecrypt, aesEncrypt, aesInvRounds_aesRounds (length_of_mem_roundKeys hk) hstart,
    xorBytes_xorBytes (by rw [hb, hk])]

/-! ## CIPHER128 -/

theorem length_cipherEncrypt (c : Params) (hk : key.length = 16) (hb : b.length = 16) :
    (cipherEncrypt c key b).length = 16 := by
  unfold cipherEncrypt
  split
  · exact length_aesEncrypt hk hb
  · exact permuteBlock_length _ _ hb

theorem length_cipherDecrypt (c : Params) (hk : key.length = 16) (hb : b.length = 16) :
    (cipherDecrypt c key b).length = 16 := by
  unfold cipherDecrypt
  split
  · exact length_aesDecrypt hk hb
  · exact permuteBlock_length _ _ hb

/-- Decryption undoes encryption, whatever CIPHER128 is (R134, R135, log 19). -/
theorem cipherDecrypt_cipherEncrypt (c : Params) (hk : key.length = 16) (hb : b.length = 16) :
    cipherDecrypt c key (cipherEncrypt c key b) = b := by
  unfold cipherDecrypt cipherEncrypt
  cases c.cipherAlgorithm with
  | aes128 => exact aesDecrypt_aesEncrypt hk hb
  | other n => exact permuteBlock_reverse _ b

end

/-- Settles O37: both calls give blocks, decryption undoes encryption, and the example of FIPS-197 is computed. -/
theorem blockCipher : Obligations.BlockCipher := by
  refine ⟨fun key b s hk hb => ?_, fun s hcipher => ?_⟩
  · refine ⟨_, _, length_cipherEncrypt s.cfg hk hb, length_cipherDecrypt s.cfg hk hb, exec_encryptBlock key b s,
      exec_decryptBlock key b s, ?_⟩
    rw [exec_decryptBlock, cipherDecrypt_cipherEncrypt s.cfg hk hb]
    rfl
  · have hvalue : aesEncrypt
        [0x00#8, 0x01#8, 0x02#8, 0x03#8, 0x04#8, 0x05#8, 0x06#8, 0x07#8, 0x08#8, 0x09#8, 0x0A#8, 0x0B#8, 0x0C#8, 0x0D#8,
          0x0E#8, 0x0F#8]
        [0x00#8, 0x11#8, 0x22#8, 0x33#8, 0x44#8, 0x55#8, 0x66#8, 0x77#8, 0x88#8, 0x99#8, 0xAA#8, 0xBB#8, 0xCC#8, 0xDD#8,
          0xEE#8, 0xFF#8] =
        [0x69#8, 0xC4#8, 0xE0#8, 0xD8#8, 0x6A#8, 0x7B#8, 0x04#8, 0x30#8, 0xD8#8, 0xCD#8, 0xB7#8, 0x80#8,
          0x70#8, 0xB4#8, 0xC5#8, 0x5A#8] := by decide +kernel
    rw [exec_encryptBlock, cipherEncrypt, hcipher]
    simp only [hvalue]
    rfl

/-! ## The byte sum and the CRC -/

/-- The sum of the bytes modulo 256 (R14, R130). -/
theorem sum8_eq_ofNat_sum (bs : Bytes) : sum8 bs = BitVec.ofNat 8 (bs.map BitVec.toNat).sum := by
  induction bs with
  | nil => rfl
  | cons b bs ih => rw [sum8, ih, List.map_cons, List.sum_cons, BitVec.ofNat_add, BitVec.ofNat_toNat, BitVec.setWidth_eq]

/-- One turn of R137's inner loop. -/
def crcTurn (c : U32) : U32 := (c >>> 1) ^^^ (if c.getLsbD 0 then 0xEDB88320#32 else 0#32)

theorem crcShift_succ (n : Nat) (c : U32) : crcShift (n + 1) c = crcShift n (crcTurn c) := rfl

/-- A turn is linear: its shift is, and the polynomial comes in where exactly one of the two low bits is set. -/
theorem crcTurn_xor (x y : U32) : crcTurn (x ^^^ y) = crcTurn x ^^^ crcTurn y := by
  have hpoly : (if (x ^^^ y).getLsbD 0 then 0xEDB88320#32 else 0#32) =
      (if x.getLsbD 0 then 0xEDB88320#32 else 0#32) ^^^ (if y.getLsbD 0 then 0xEDB88320#32 else 0#32) := by
    rw [BitVec.getLsbD_xor]
    cases x.getLsbD 0 <;> cases y.getLsbD 0 <;> rfl
  rw [crcTurn, BitVec.ushiftRight_xor_distrib, hpoly, crcTurn, crcTurn]
  ac_rfl

theorem crcShift_xor (n : Nat) (x y : U32) : crcShift n (x ^^^ y) = crcShift n x ^^^ crcShift n y := by
  induction n generalizing x y with
  | zero => rfl
  | succ n ih => rw [crcShift_succ, crcTurn_xor, ih, ← crcShift_succ, ← crcShift_succ]

/-- Turns that meet only zero bits are a plain shift. -/
theorem crcShift_eq_ushiftRight {n : Nat} {x : U32} (h : ∀ i < n, x.getLsbD i = false) : crcShift n x = x >>> n := by
  induction n generalizing x with
  | zero => exact (BitVec.ushiftRight_zero x).symm
  | succ n ih =>
    have hturn : crcTurn x = x >>> 1 := by
      rw [crcTurn, h 0 (Nat.succ_pos n), if_neg Bool.false_ne_true, BitVec.xor_zero]
    rw [crcShift_succ, hturn, ih, ← BitVec.shiftRight_add, Nat.add_comm]
    intro i hi
    rw [BitVec.getLsbD_ushiftRight]
    exact h (1 + i) (by omega)

/-- A table entry is eight turns (R138). -/
theorem crcTable_eq_crcShift (x : U32) : crcTable x = crcShift 8 x := by
  have hbody (c : U32) : (if c.getLsbD 0 then (c >>> 1) ^^^ 0xEDB88320#32 else c >>> 1) = crcTurn c := by
    unfold crcTurn
    split
    · rfl
    · exact (BitVec.xor_zero).symm
  simp only [crcTable, hbody]
  rfl

/-- Eight turns of a word: the low byte goes through the table, the three others are shifted down (R138). -/
theorem crcShift_eight (x : U32) : crcShift 8 x = crcTable (x &&& 0xFF#32) ^^^ (x >>> 8) := by
  have hsplit : (x &&& 0xFF#32) ^^^ (x &&& ~~~0xFF#32) = x := by
    refine BitVec.eq_of_getLsbD_eq fun i hi => ?_
    rw [BitVec.getLsbD_xor, BitVec.getLsbD_and, BitVec.getLsbD_and, BitVec.getLsbD_not, decide_eq_true hi]
    cases x.getLsbD i <;> cases (0xFF#32).getLsbD i <;> rfl
  have hmask_low : ∀ i < 8, (0xFF#32).getLsbD i = true := by decide
  have hlow : ∀ i < 8, (x &&& ~~~0xFF#32).getLsbD i = false := fun i hi => by
    rw [BitVec.getLsbD_and, BitVec.getLsbD_not, hmask_low i hi, Bool.not_true, Bool.and_false, Bool.and_false]
  have hmask_high : (0xFF#32) >>> 8 = 0#32 := rfl
  have hhigh : (x &&& ~~~0xFF#32) >>> 8 = x >>> 8 :=
    calc (x &&& ~~~0xFF#32) >>> 8 = ((x &&& 0xFF#32) ^^^ (x &&& ~~~0xFF#32)) >>> 8 := by
          rw [BitVec.ushiftRight_xor_distrib, BitVec.ushiftRight_and_distrib x 0xFF#32, hmask_high, BitVec.and_zero,
            BitVec.zero_xor]
      _ = x >>> 8 := by rw [hsplit]
  calc crcShift 8 x = crcShift 8 (x &&& 0xFF#32) ^^^ crcShift 8 (x &&& ~~~0xFF#32) := by rw [← crcShift_xor, hsplit]
    _ = crcTable (x &&& 0xFF#32) ^^^ (x >>> 8) := by
      rw [← crcTable_eq_crcShift, crcShift_eq_ushiftRight hlow, hhigh]

/-- One byte of R137's outer loop in table form (R138): the byte reaches the low eight bits only. -/
theorem crcShift_xor_byte (c : U32) (x : Byte) :
    crcShift 8 (c ^^^ x.setWidth 32) = crcTable ((c ^^^ x.setWidth 32) &&& 0xFF#32) ^^^ (c >>> 8) := by
  have hbyte : x.setWidth 32 >>> 8 = 0#32 := by bv_omega
  rw [crcShift_eight, BitVec.ushiftRight_xor_distrib, hbyte, BitVec.xor_zero]

theorem crcBytes_eq_foldl (c : U32) (bs : Bytes) :
    crcBytes c bs = bs.foldl (fun c x => crcTable ((c ^^^ x.setWidth 32) &&& 0xFF#32) ^^^ (c >>> 8)) c := by
  induction bs generalizing c with
  | nil => rfl
  | cons x bs ih => rw [crcBytes, ih, crcShift_xor_byte, List.foldl_cons]

/-- Settles O38: the byte sum by induction on the bytes, the CRC by the linearity of its turns. -/
theorem checksumAndCrc : Obligations.ChecksumAndCrc := by
  refine fun bs s => ⟨?_, ?_⟩
  · rw [exec_checksum, sum8_eq_ofNat_sum]
    rfl
  · rw [exec_crc32, crcBytes_eq_foldl]
    rfl

end Sys2Proof.Machine
end

section
/-! PROOF. The PRNG of the scramble engine (41_scramble.md R160, R161, 60_exceptions.md R341): GenerateSeed and GetNext
in terms of one step of the generator. -/

namespace Sys2Proof.Machine

/-! ## What each call answers -/

theorem exec_generateSeed (seed : U32) (s : State) :
    exec (.generateSeed seed) s = .next ((generateSeedOp seed s).ends .done) := rfl

theorem exec_getNext_of_seeded {s : State} (h : s.prng.seeded = true) :
    exec .getNext s = .next { s with prng := (prngStep s.prng).1, result := .word (prngStep s.prng).2 } := by
  have hdraw : getNextOp s = .ok ({ s with prng := (prngStep s.prng).1 }, (prngStep s.prng).2) :=
    getNextOp_ok.2 ⟨h, rfl, rfl⟩
  change execGetNext s = _
  rw [execGetNext, hdraw]
  rfl

theorem exec_getNext_of_unseeded {s : State} (h : s.prng.seeded = false) :
    exec .getNext s = .fault .unseededPrng := by
  have hfault : getNextOp s = .error .unseededPrng := if_neg (by rw [h]; exact Bool.false_ne_true)
  change execGetNext s = _
  rw [execGetNext, hfault]
  rfl

/-! ## The warm-up -/

/-- The last of the discarded words is one more step. -/
theorem prngDiscard_succ (n : Nat) (p : Prng) : prngDiscard (n + 1) p = (prngStep (prngDiscard n p)).1 := by
  induction n generalizing p with
  | zero => rfl
  | succ n ih => rw [prngDiscard, ih, prngDiscard]

/-- GenerateSeed leaves a warmed-up PRNG (R160). -/
theorem warmedUp_prngDiscard (s : State) (seed : U32) :
    WarmedUp s seed (prngDiscard s.cfg.prngWarmup (prngSeeded s.cfg seed)) := by
  refine ⟨fun k => prngDiscard k (prngSeeded s.cfg seed), rfl, fun k _ => ?_, rfl⟩
  simp only [prngDiscard_succ]
  exact ⟨_, exec_getNext_of_seeded (prngDiscard_seeded k _)⟩

/-! ## The all-zero state -/

/-- The four words of the generator are 0, the state no step leaves (R161). -/
def Prng.AllZero (p : Prng) : Prop := p.a = 0#32 ∧ p.b = 0#32 ∧ p.c = 0#32 ∧ p.d = 0#32

@[simp] theorem rotl32_zero (n : Nat) : rotl32 0#32 n = 0#32 := by
  rw [rotl32, BitVec.zero_shiftLeft, BitVec.zero_ushiftRight, BitVec.or_zero]

/-- A step reaches the all-zero state from itself only: read backwards, `b1 + t` and `b1` give `t`, then `d`, `c`, `b`
and `a` follow in turn. -/
theorem Prng.AllZero.of_prngStep {p : Prng} (h : (prngStep p).1.AllZero) : p.AllZero := by
  obtain ⟨hb1, hc1, hd1, hr⟩ := h
  simp only [prngStep] at hb1 hc1 hd1 hr
  have ht : p.a - rotl32 p.b 27 = 0#32 := by rwa [hb1, BitVec.zero_add] at hr
  have hd : p.d = 0#32 := by rwa [ht, BitVec.add_zero] at hd1
  have hc : p.c = 0#32 := by rwa [hd, BitVec.add_zero] at hc1
  have hb : p.b = 0#32 := by rwa [hc, rotl32_zero, BitVec.xor_zero] at hb1
  have ha : p.a = 0#32 := by rwa [hb, rotl32_zero, BitVec.sub_zero] at ht
  exact ⟨ha, hb, hc, hd⟩

theorem Prng.AllZero.of_prngDiscard {n : Nat} {p : Prng} (h : (prngDiscard n p).AllZero) : p.AllZero := by
  induction n generalizing p with
  | zero => exact h
  | succ n ih => exact (ih h).of_prngStep

/-- Settles O39: GetNext is one step of the generator, and no step reaches the all-zero state from another one. -/
theorem prngCalls : Obligations.PrngCalls := by
  refine ⟨fun seed s => ⟨_, warmedUp_prngDiscard s seed, exec_generateSeed seed s, prngDiscard_seeded _ _, ?_⟩,
    fun s => ⟨fun hs => ?_, exec_getNext_of_unseeded⟩⟩
  · exact fun ha0 hzero => ha0 (Prng.AllZero.of_prngDiscard hzero).1
  · rw [exec_getNext_of_seeded hs, prngStep, hs]
    rfl

end Sys2Proof.Machine
end

section
/-! PROOF. The bit-interleave transform (41_scramble.md R162 to R164): the two loops in closed form, then the inverse
laws from the closed forms alone. -/

namespace Sys2Proof.Machine

/-! ## What each call answers -/

theorem exec_scramble (v g : U32) (s : State) :
    exec (.scramble v g) s = .next (s.ends (.dword (scrambleOp s.cfg v g))) := rfl

theorem exec_descramble (x : U64) (s : State) :
    exec (.descramble x) s = .next (s.ends (.word (descrambleOp s.cfg x))) := rfl

/-! ## Ranks in the mask -/

theorem popcount64_eq_maskRank (m : U64) : popcount64 m = maskRank m true 64 := by
  simp only [popcount64, maskRank, beq_true]

@[simp] theorem maskRank_zero (m : U64) (b : Bool) : maskRank m b 0 = 0 := rfl

/-- The rank counts up at the top. -/
theorem maskRank_succ (m : U64) (b : Bool) (i : Nat) :
    maskRank m b (i + 1) = maskRank m b i + if m.getLsbD i = b then 1 else 0 := by
  simp only [maskRank, List.range_succ, List.filter_append, List.length_append, List.filter_cons, List.filter_nil,
    beq_iff_eq]
  split <;> rfl

/-- The rank counts up at the bottom, where R162's loop takes the mask's bits. -/
theorem maskRank_succ_shift (m : U64) (b : Bool) (i : Nat) :
    maskRank m b (i + 1) = maskRank (m >>> 1) b i + if m.getLsbD 0 = b then 1 else 0 := by
  induction i with
  | zero => rw [maskRank_succ, maskRank_zero, maskRank_zero]
  | succ i ih => rw [maskRank_succ, ih, maskRank_succ, BitVec.getLsbD_ushiftRight, Nat.add_comm 1 i, Nat.add_right_comm]

theorem maskRank_mono (m : U64) (b : Bool) {i n : Nat} (h : i ≤ n) : maskRank m b i ≤ maskRank m b n := by
  induction h with
  | refl => exact Nat.le_refl _
  | step _ ih => rw [maskRank_succ]; exact Nat.le_add_right_of_le ih

/-- A counted position ranks below the count. -/
theorem maskRank_lt {m : U64} {b : Bool} {i n : Nat} (hi : i < n) (hm : m.getLsbD i = b) :
    maskRank m b i < maskRank m b n :=
  calc maskRank m b i < maskRank m b (i + 1) := by rw [maskRank_succ, if_pos hm]; exact Nat.lt_succ_self _
    _ ≤ maskRank m b n := maskRank_mono m b hi

/-- Every number below the count is the rank of a counted position. -/
theorem exists_maskRank_eq {m : U64} {b : Bool} {n k : Nat} (hk : k < maskRank m b n) :
    ∃ i < n, m.getLsbD i = b ∧ maskRank m b i = k := by
  induction n with
  | zero => exact absurd hk (Nat.not_lt_zero k)
  | succ n ih =>
    by_cases hlt : k < maskRank m b n
    · obtain ⟨i, hi, hm, hrank⟩ := ih hlt
      exact ⟨i, Nat.lt_succ_of_lt hi, hm, hrank⟩
    · rw [maskRank_succ] at hk
      split at hk
      · exact ⟨n, Nat.lt_succ_self n, ‹_›, by omega⟩
      · omega

/-! ## Scramble -/

/-- Both loops shift the result up and take in the lowest bit of a word. -/
theorem getLsbD_shiftLeft_or_lowBit {w u : Nat} (r : BitVec w) (x : BitVec u) {j : Nat} (hj : j < w) :
    ((r <<< 1) ||| (x &&& 1#u).setWidth w).getLsbD j = if j = 0 then x.getLsbD 0 else r.getLsbD (j - 1) := by
  cases j with
  | zero => simpa [hj] using BitVec.lt_of_getLsbD
  | succ j => simp [hj, BitVec.getLsbD_eq_getElem (Nat.lt_of_succ_lt hj)]

/-- The bit that R162 takes where the mask has its bit `i`. -/
def scrambleBit (m : U64) (v g : U32) (i : Nat) : Bool :=
  if m.getLsbD i then v.getLsbD (maskRank m true i) else g.getLsbD (maskRank m false i)

/-- The first bit is the lowest one of the word that the mask's lowest bit selects. -/
theorem scrambleBit_zero (m : U64) (v g : U32) :
    scrambleBit m v g 0 = (if m.getLsbD 0 then v else g).getLsbD 0 := by
  rw [scrambleBit, maskRank_zero, maskRank_zero]
  split <;> rfl

/-- The other bits come from the mask and that word one place down. -/
theorem scrambleBit_succ (m : U64) (v g : U32) (i : Nat) :
    scrambleBit m v g (i + 1) =
      scrambleBit (m >>> 1) (if m.getLsbD 0 then v >>> 1 else v) (if m.getLsbD 0 then g else g >>> 1) i := by
  simp only [scrambleBit, maskRank_succ_shift, BitVec.getLsbD_ushiftRight, Nat.add_comm 1 i]
  cases m.getLsbD 0 <;> simp [Nat.add_comm 1]

/-- One turn of R162's loop, whichever word it takes its bit from. -/
theorem scrambleLoop_succ (n : Nat) (m : U64) (v g : U32) (r : U64) :
    scrambleLoop (n + 1) m v g r =
      scrambleLoop n (m >>> 1) (if m.getLsbD 0 then v >>> 1 else v) (if m.getLsbD 0 then g else g >>> 1)
        ((r <<< 1) ||| ((if m.getLsbD 0 then v else g) &&& 1#32).setWidth 64) := by
  rw [scrambleLoop]
  split <;> rfl

/-- `n` turns put the first `n` bits below the result so far, the first one on top. -/
theorem scrambleLoop_getLsbD {n j : Nat} (hj : j < 64) (m : U64) (v g : U32) (r : U64) :
    (scrambleLoop n m v g r).getLsbD j = if j < n then scrambleBit m v g (n - 1 - j) else r.getLsbD (j - n) := by
  induction n generalizing m v g r with
  | zero => rfl
  | succ n ih =>
    rw [scrambleLoop_succ, ih]
    rcases Nat.lt_trichotomy j n with hlt | rfl | hgt
    · have hnext : n + 1 - 1 - j = n - 1 - j + 1 := by omega
      rw [if_pos hlt, if_pos (Nat.lt_succ_of_lt hlt), hnext, scrambleBit_succ]
    · rw [if_neg (Nat.lt_irrefl j), if_pos (Nat.lt_succ_self j), getLsbD_shiftLeft_or_lowBit _ _ (by omega),
        if_pos (Nat.sub_self j), Nat.add_sub_cancel, Nat.sub_self, scrambleBit_zero]
    · have hpos : j - n ≠ 0 := by omega
      have hpast : ¬ j < n + 1 := by omega
      rw [if_neg (Nat.lt_asymm hgt), if_neg hpast, getLsbD_shiftLeft_or_lowBit _ _ (by omega), if_neg hpos, Nat.sub_sub]

/-- Scramble in closed form (R162). -/
theorem scrambleOp_getLsbD (c : Params) (v g : U32) {i : Nat} (hi : i < 64) :
    (scrambleOp c v g).getLsbD (63 - i) = scrambleBit c.scrambleMask v g i := by
  have hj : 63 - i < 64 := by omega
  have hback : 64 - 1 - (63 - i) = i := by omega
  rw [scrambleOp, scrambleLoop_getLsbD hj, if_pos hj, hback]

/-! ## Descramble -/

/-- One turn of R163's loop, `d` turns after its start and `n` turns before its end: the mask's bit `n` decides whether
the result takes in the operand's bit `d`. -/
theorem descrambleLoop_succ {n d : Nat} (hnd : n + 1 + d = 64) (m x : U64) (r : U32) :
    descrambleLoop (n + 1) (m <<< d) (x >>> d) r =
      descrambleLoop n (m <<< (d + 1)) (x >>> (d + 1))
        (if m.getLsbD n then (r <<< 1) ||| ((x >>> d) &&& 1#64).setWidth 32 else r) := by
  have hd : ¬ 63 < d := by omega
  have hn : 63 - d = n := by omega
  have htop : (m <<< d).getLsbD 63 = m.getLsbD n := by
    simp [-BitVec.getLsbD_eq_getElem, BitVec.getLsbD_shiftLeft, hd, hn]
  rw [descrambleLoop, htop, ← BitVec.shiftLeft_add, ← BitVec.shiftRight_add]

/-- The last `n` turns move the result so far up by one place for each set bit of the mask below position `n`. -/
theorem descrambleLoop_getLsbD_above {n d k : Nat} (hnd : n + d = 64) (m x : U64) (r : U32)
    (hk : k + maskRank m true n < 32) :
    (descrambleLoop n (m <<< d) (x >>> d) r).getLsbD (k + maskRank m true n) = r.getLsbD k := by
  induction n generalizing d r k with
  | zero => rfl
  | succ n ih =>
    rw [descrambleLoop_succ hnd]
    rw [maskRank_succ] at hk ⊢
    cases hm : m.getLsbD n with
    | true =>
      have hplace : k + (maskRank m true n + 1) = k + 1 + maskRank m true n := by omega
      simp only [hm, if_true, hplace] at hk ⊢
      rw [ih (by omega) _ hk, getLsbD_shiftLeft_or_lowBit _ _ (by omega), if_neg (Nat.succ_ne_zero k),
        Nat.add_sub_cancel]
    | false =>
      simp only [hm, Bool.false_eq_true, if_false, Nat.add_zero] at hk ⊢
      exact ih (by omega) _ hk

/-- A set bit of the mask at position `i < n` has its turn among the last `n`; the operand's mirrored bit lands at its
rank. -/
theorem descrambleLoop_getLsbD {n d i : Nat} (hnd : n + d = 64) (m x : U64) (r : U32) (hi : i < n)
    (hm : m.getLsbD i = true) (hk : maskRank m true i < 32) :
    (descrambleLoop n (m <<< d) (x >>> d) r).getLsbD (maskRank m true i) = x.getLsbD (63 - i) := by
  induction n generalizing d r with
  | zero => exact absurd hi (Nat.not_lt_zero i)
  | succ n ih =>
    rw [descrambleLoop_succ hnd]
    rcases Nat.lt_succ_iff_lt_or_eq.1 hi with hlt | rfl
    · exact ih (by omega) _ hlt
    · have hmirror : 63 - i = d := by omega
      have hplace := descrambleLoop_getLsbD_above (k := 0) (by omega : i + (d + 1) = 64) m x
        ((r <<< 1) ||| ((x >>> d) &&& 1#64).setWidth 32) (by rwa [Nat.zero_add])
      rw [Nat.zero_add] at hplace
      rw [if_pos hm, hplace, getLsbD_shiftLeft_or_lowBit _ _ (by decide), if_pos rfl, BitVec.getLsbD_ushiftRight,
        Nat.add_zero, hmirror]

/-- Descramble in closed form (R163). -/
theorem descrambleOp_getLsbD (c : Params) (x : U64) {i : Nat} (hi : i < 64) (hm : c.scrambleMask.getLsbD i = true)
    (hk : maskRank c.scrambleMask true i < 32) :
    (descrambleOp c x).getLsbD (maskRank c.scrambleMask true i) = x.getLsbD (63 - i) := by
  have h := descrambleLoop_getLsbD (Nat.add_zero 64) c.scrambleMask x 0#32 hi hm hk
  rwa [BitVec.shiftLeft_zero, BitVec.ushiftRight_zero] at h

/-- Settles O40: each loop, by induction on its turns, puts every bit at its rank's place. -/
theorem scrambleClosedForm : Obligations.ScrambleClosedForm :=
  ⟨fun v g s => ⟨_, exec_scramble v g s, fun _ hi => scrambleOp_getLsbD s.cfg v g hi⟩,
    fun x s => ⟨_, exec_descramble x s, fun _ => descrambleOp_getLsbD s.cfg x⟩⟩

/-! ## The inverse laws -/

/-- Words of 64 bits agree where their mirrored bits do. -/
theorem eq_iff_mirrored_getLsbD {x y : U64} : x = y ↔ ∀ i < 64, x.getLsbD (63 - i) = y.getLsbD (63 - i) := by
  refine ⟨fun h _ _ => h ▸ rfl, fun h => BitVec.eq_of_getLsbD_eq fun j hj => ?_⟩
  have hmirror : 63 - (63 - j) = j := by omega
  have hbit := h (63 - j) (by omega)
  rwa [hmirror] at hbit

section
variable {c : Params}

theorem maskRank_lt_of_popcount64 {m : U64} (hpop : popcount64 m = 32) {i : Nat} (hi : i < 64)
    (hm : m.getLsbD i = true) : maskRank m true i < 32 :=
  calc maskRank m true i < maskRank m true 64 := maskRank_lt hi hm
    _ = 32 := by rw [← popcount64_eq_maskRank, hpop]

/-- Every bit of the value stands at the place of one set bit of the mask, and Descramble reads it there (R164). -/
theorem descrambleOp_scrambleOp (hpop : popcount64 c.scrambleMask = 32) (v g : U32) :
    descrambleOp c (scrambleOp c v g) = v := by
  refine BitVec.eq_of_getLsbD_eq fun k hk => ?_
  obtain ⟨i, hi, hm, rfl⟩ : ∃ i < 64, c.scrambleMask.getLsbD i = true ∧ maskRank c.scrambleMask true i = k :=
    exists_maskRank_eq (by rwa [← popcount64_eq_maskRank, hpop])
  rw [descrambleOp_getLsbD c _ hi hm hk, scrambleOp_getLsbD c v g hi, scrambleBit, if_pos hm]

/-- Scramble puts the descrambled bits back, so it gives the word back where the garbage fits (R164). -/
theorem scrambleOp_descrambleOp_iff (hpop : popcount64 c.scrambleMask = 32) (x : U64) (g : U32) :
    scrambleOp c (descrambleOp c x) g = x ↔
      ∀ i, i < 64 → c.scrambleMask.getLsbD i = false →
        x.getLsbD (63 - i) = g.getLsbD (maskRank c.scrambleMask false i) := by
  rw [eq_iff_mirrored_getLsbD]
  refine forall₂_congr fun i hi => ?_
  rw [scrambleOp_getLsbD c _ g hi, scrambleBit]
  cases hm : c.scrambleMask.getLsbD i with
  | true => simp [descrambleOp_getLsbD c x hi hm (maskRank_lt_of_popcount64 hpop hi hm)]
  | false => simp [eq_comm]

end

/-- Settles O41: the closed forms of Scramble and Descramble, bit by bit. -/
theorem scrambleInverse : Obligations.ScrambleInverse :=
  fun _ hpop => ⟨descrambleOp_scrambleOp hpop, scrambleOp_descrambleOp_iff hpop⟩

end Sys2Proof.Machine
end

section
/-! PROOF. The figure catalog and the activation flag (42_registry.md R180 to R182, R185 to R187). -/

namespace Sys2Proof.Machine

/-! ## The catalog -/

theorem entryById_eq_find? (es : List CatalogEntry) (id : U16) :
    entryById es id = es.find? fun e => e.numericId == id := by
  induction es with
  | nil => rfl
  | cons e es ih => by_cases h : e.numericId = id <;> simp [entryById, h, ih]

theorem entryByName_eq_find? (es : List CatalogEntry) (n : Bytes) :
    entryByName es n = es.find? fun e => e.name == n := by
  induction es with
  | nil => rfl
  | cons e es ih => by_cases h : e.name = n <;> simp [entryByName, h, ih]

theorem findByNumericIdOp_eq (c : Params) (id : U16) :
    findByNumericIdOp c id = (c.catalog.find? fun e => e.numericId == id).map CatalogEntry.name := by
  rw [findByNumericIdOp, entryById_eq_find?]

theorem exec_findByNumericId (id : U16) (s : State) :
    exec (.findByNumericId id) s = .next (s.ends (.optName (findByNumericIdOp s.cfg id))) := rfl

theorem exec_findByName (n : Bytes) (s : State) :
    exec (.findByName n) s = .next (s.ends (.optEntry (entryByName s.cfg.catalog n))) := rfl

/-- Settles O42: both searches take the first match in table order. -/
theorem catalogLookups : Obligations.CatalogLookups := by
  intro id n s
  refine ⟨?_, ?_, rfl⟩
  · rw [exec_findByNumericId, findByNumericIdOp_eq]
    rfl
  · rw [exec_findByName, entryByName_eq_find?]
    rfl

/-! ## The activation flag -/

theorem deactivateOp_of_family_a {s : State} (hf : s.cfg.family = .a) :
    deactivateOp s = { s with activated := false } := by
  simp only [deactivateOp, hf]

theorem deactivateOp_of_family_b {s : State} (hf : s.cfg.family = .b) :
    deactivateOp s = { s with activated := false, slots := s.slots.map collapseSlot } := by
  simp only [deactivateOp, hf]

theorem exec_deactivate (s : State) : exec .deactivate s = .next ((deactivateOp s).ends .done) := rfl

/-- Settles O43: `collapseSlot` is R187's change of one slot. -/
theorem activationCalls : Obligations.ActivationCalls := by
  refine fun s => ⟨rfl, rfl, fun hf => ?_, fun hf => ?_⟩
  · rw [exec_deactivate, deactivateOp_of_family_a hf]
    rfl
  · rw [exec_deactivate, deactivateOp_of_family_b hf]
    rfl

end Sys2Proof.Machine
end

section
/-! PROOF. Operand forms: block addressing (42_registry.md R183, R184) and slot resolution (R195), as equations. -/

namespace Sys2Proof.Machine

variable {c : Params} {s : State} {n x : Byte}

/-! ## Block addressing -/

/-- R183's offset of the unit a block number stands for: unit 1 for block 0, unit `4n` for block `n`. -/
theorem blockOffsetA_eq (n : Byte) : blockOffsetA n = 16 * if n.toNat = 0 then 1 else 4 * n.toNat := by
  have hzero : n = 0#8 ↔ n.toNat = 0 := BitVec.toNat_eq
  unfold blockOffsetA
  by_cases h : n.toNat = 0
  · simp [hzero.2 h]
  · rw [if_neg (mt hzero.1 h), if_neg h]
    omega

/-- The five blocks of a Family A figure stand at their offsets, where the buffer has room (R183, R62). -/
theorem offA_of_le (hn : n.toNat ≤ 4) (hlen : blockOffsetA n + 16 ≤ c.bufLenA) : offA c n = .ok (blockOffsetA n) := by
  rw [blockOffsetA_eq] at hlen ⊢
  have hunit : (if n.toNat = 0 then 1 else 4 * n.toNat) < 20 := by split <;> omega
  rw [offA, if_neg (by omega)]

theorem offA_of_ge (hn : 5 ≤ n.toNat) : offA c n = .error (.blockOutOfRange n.toNat) := by
  rw [offA, if_neg (show ¬ n.toNat = 0 by omega), if_pos (.inl (by omega))]

/-- A block past the end of a shorter buffer is out of range too (R62). -/
theorem offA_of_short (hlen : c.bufLenA < blockOffsetA n + 16) : offA c n = .error (.blockOutOfRange n.toNat) := by
  rw [blockOffsetA_eq] at hlen
  rw [offA, if_pos (.inr hlen)]

theorem offB_of_lt (hn : n.toNat < 64) (hlen : 16 * n.toNat + 16 ≤ c.bufLenB) : offB c n = .ok (16 * n.toNat) := by
  rw [offB, if_neg (by omega)]

theorem offB_of_ge (hn : 64 ≤ n.toNat) : offB c n = .error (.blockOutOfRange n.toNat) := by
  rw [offB, if_pos (.inl hn)]

/-- A block past the end of a shorter buffer is out of range too (R62). -/
theorem offB_of_short (hlen : c.bufLenB < 16 * n.toNat + 16) : offB c n = .error (.blockOutOfRange n.toNat) := by
  rw [offB, if_pos (.inr hlen)]

/-- Settles O18: the conditions of R183, R184 and R62, one lemma each. -/
theorem blockAddressing : Obligations.BlockAddressing := by
  refine ⟨fun c n => ⟨fun h0 hlen => ?_, fun hpos hn hlen => ?_, offA_of_ge, fun _ => offA_of_short⟩,
    fun c n => ⟨offB_of_lt, offB_of_ge, fun _ => offB_of_short⟩⟩
  · have hoff : blockOffsetA n = 16 := by rw [blockOffsetA_eq, if_pos h0]
    exact hoff ▸ offA_of_le (by omega) (by omega)
  · have hoff : blockOffsetA n = 16 * (4 * n.toNat) := by rw [blockOffsetA_eq, if_neg (by omega)]
    exact hoff ▸ offA_of_le (by omega) (by omega)

/-! ## Slot resolution -/

/-- The slot is present with order-added `o` (R195). -/
def Slot.hasOrder (o : Nat) (sl : Slot) : Bool := sl.present && sl.order == some o

theorem Slot.hasOrder_iff {o : Nat} {sl : Slot} : sl.hasOrder o = true ↔ sl.present = true ∧ sl.order = some o := by
  simp [Slot.hasOrder]

/-- Resolution by order-added is the search for the first such slot (R195). -/
theorem orderSlot_eq_findIdx? (o i : Nat) (l : List Slot) :
    orderSlot o i l = (l.findIdx? (Slot.hasOrder o)).map (· + i) := by
  induction l generalizing i with
  | nil => rfl
  | cons sl l ih =>
    rw [orderSlot, ih, List.findIdx?_cons]
    by_cases h : sl.hasOrder o = true
    · simp [h, Slot.hasOrder_iff.1 h]
    · rw [if_neg (mt Slot.hasOrder_iff.2 h), if_neg h, Option.map_map]
      congr 1
      funext j
      simp only [Function.comp_apply]
      omega

theorem resolveA_of_slotIndex (h : s.cfg.aSelector = .slotIndex) :
    resolveA s x = if x.toNat < s.cfg.nSlotsA then .ok (some x.toNat) else .error (.slotOutOfRange x.toNat) := by
  simp only [resolveA, h]

theorem resolveA_of_orderAdded (h : s.cfg.aSelector = .orderAdded) :
    resolveA s x = .ok (s.slots.findIdx? (Slot.hasOrder x.toNat)) := by
  simp [resolveA, h, orderSlot_eq_findIdx?]

/-- A selector that cannot be out of range resolves (R195). -/
theorem exists_resolveA (h : s.cfg.aSelector = .slotIndex → x.toNat < s.cfg.nSlotsA) :
    ∃ slot, resolveA s x = .ok slot := by
  cases hsel : s.cfg.aSelector with
  | slotIndex => exact ⟨_, by rw [resolveA_of_slotIndex hsel, if_pos (h hsel)]⟩
  | orderAdded => exact ⟨_, resolveA_of_orderAdded hsel⟩

/-- Resolution reads the selector rule, the slot count, and which slots are present with which order-added (R195). -/
theorem resolveA_congr {t : State} (hcfg : t.cfg = s.cfg)
    (hslots : t.slots.map (fun sl => (sl.present, sl.order)) = s.slots.map fun sl => (sl.present, sl.order)) :
    resolveA t x = resolveA s x := by
  cases hsel : s.cfg.aSelector with
  | slotIndex => rw [resolveA_of_slotIndex hsel, resolveA_of_slotIndex (hcfg ▸ hsel), hcfg]
  | orderAdded =>
    rw [resolveA_of_orderAdded hsel, resolveA_of_orderAdded (hcfg ▸ hsel)]
    have h := congrArg (List.findIdx? fun p => p.1 && p.2 == some x.toNat) hslots
    rw [List.findIdx?_map, List.findIdx?_map] at h
    exact congrArg Except.ok h

theorem slotAt_eq_getElem {i : Nat} (h : i < s.slots.length) : s.slotAt i = s.slots[i] := by
  simp [State.slotAt, h]

theorem slotB_of_lt {i : Nat} (h : i < s.cfg.nSlotsB) : slotB s i = .ok i := if_pos h

theorem slotB_of_le {i : Nat} (h : s.cfg.nSlotsB ≤ i) : slotB s i = .error (.slotOutOfRange i) := if_neg (by omega)

/-- The slot number of a slot byte is its low nibble (R98, R195). -/
theorem resolveB_eq (s : State) (sb : Byte) : resolveB s sb = slotB s (sb.toNat % 16) := by
  rw [resolveB, BitVec.toNat_and]
  exact congrArg _ (Nat.and_two_pow_sub_one_eq_mod sb.toNat 4)

/-- Settles O17: the first slot of an order-added is the result of a search, and a Family B slot byte is masked. -/
theorem slotResolution : Obligations.SlotResolution := by
  refine ⟨fun s x hsel => ⟨fun h => ?_, fun h => ?_⟩, fun s x hsel => ?_, fun s sb => ⟨fun h => ?_, fun h => ?_⟩⟩
  · rw [resolveA_of_slotIndex hsel, if_pos h]
  · rw [resolveA_of_slotIndex hsel, if_neg (by omega)]
  · rw [resolveA_of_orderAdded hsel]
    cases hfind : s.slots.findIdx? (Slot.hasOrder x.toNat) with
    | some i =>
      obtain ⟨hi, hhas, hfirst⟩ := List.findIdx?_eq_some_iff_getElem.1 hfind
      obtain ⟨hpresent, horder⟩ := Slot.hasOrder_iff.1 hhas
      refine .inl ⟨i, hi, rfl, ?_, ?_, fun j hj => ?_⟩
      · rw [slotAt_eq_getElem hi, hpresent]
      · rw [slotAt_eq_getElem hi, horder]
      · rw [slotAt_eq_getElem (by omega), ← Slot.hasOrder_iff]
        exact hfirst j hj
    | none =>
      have hnone := List.findIdx?_eq_none_iff.1 hfind
      refine .inr ⟨rfl, fun j hj => ?_⟩
      rw [← Slot.hasOrder_iff, hnone _ (slotAt_mem hj)]
      exact Bool.false_ne_true
  · rw [resolveB_eq, slotB_of_lt h]
  · rw [resolveB_eq, slotB_of_le h]

end Sys2Proof.Machine
end

section
/-! PROOF. The registry's reads (42_registry.md R188 to R190, R194; 44_family_a.md R276, R277, R279; 45_family_b.md R307):
each read's reply as an equation, then its unit call and its command, which leave the rest of the state as it was. -/

namespace Sys2Proof.Machine

variable {s : State}

/-! ## Read-only commands and unit calls -/

/-- A Family A command that only reads queues its reply and echoes its payload (R260). -/
theorem commandA_readOnly {p r : Bytes} {read : State → Except Fault Bytes} (hf : s.cfg.family = .a) (hq : CanReply s)
    (hr : read s = .ok r) :
    commandA p (fun s => readOnly s (read s)) s = .next (replied s p r s.cfg.dAEcho) :=
  commandA_eq hf (by rw [hr]; rfl) hq

/-- A unit call that only reads returns its response (R101). -/
theorem onFamily_returnBytes {f : Family} {e : Except Fault Bytes} {r : Bytes} (hf : s.cfg.family = f) (hr : e = .ok r) :
    onFamily f s (returnBytes s e) = .next { s with result := .bytes r } := by
  rw [onFamily_eq hf, hr]
  rfl

/-! ## Present figures -/

/-- R188's bytes for one slot. -/
def presentBytes (c : Params) (i : Nat) (sl : Slot) : Bytes :=
  if sl.present then [roleCode c i + orderByte sl.order, c.aMarker] else []

/-- The body lists the slots by number (R188). -/
theorem presentBody_eq_flatMap (c : Params) (i : Nat) (l : List Slot) :
    presentBody c i l = (List.range l.length).flatMap fun k => presentBytes c (i + k) (l.getD k Slot.empty) := by
  induction l generalizing i with
  | nil => rfl
  | cons sl l ih =>
    rw [presentBody, ih, List.length_cons, List.range_succ_eq_map, List.flatMap_cons, List.flatMap_map]
    simp only [List.getD_cons_succ, List.getD_cons_zero, Nat.succ_eq_add_one, Nat.add_right_comm i 1, Nat.add_zero,
      ← Nat.add_assoc]
    rfl

theorem exec_getPresentFigures (hf : s.cfg.family = .a) (seq : Byte) :
    exec (.getPresentFigures seq) s = .next { s with result := .bytes (getPresentFiguresOp s seq) } := onFamily_eq hf _

theorem exec_aPresentFigures (seq : Byte) (t : FrameTail) (s : State) :
    exec (.aPresentFigures seq t) s =
      commandA (aFrame 0xA1#8 seq [] t) (fun s => .ok (s, getPresentFiguresOp s seq)) s := rfl

/-- Settles O16: the recursive body is the list over the slot numbers. -/
theorem presentFigures : Obligations.PresentFigures := by
  intro seq t s hf body
  have hbody : presentBody s.cfg 0 s.slots = body := by
    rw [presentBody_eq_flatMap]
    simp only [Nat.zero_add]
    rfl
  rw [exec_getPresentFigures hf, exec_aPresentFigures, ← hbody]
  exact ⟨rfl, commandA_eq hf rfl⟩

/-! ## Blocks and identifiers of Family A -/

/-- The bytes `n` from offset `off` of the slot a selector resolved to, if it is present. -/
def readSlot (s : State) (slot : Option Nat) (off n : Nat) : Option Bytes :=
  slot.bind fun i => if (s.slotAt i).present then some (s.memRead i off n) else none

theorem readSlot_of_present {i : Nat} (h : (s.slotAt i).present = true) (off n : Nat) :
    readSlot s (some i) off n = some (s.memRead i off n) := if_pos h

theorem readSlot_of_absent {i : Nat} (h : (s.slotAt i).present = false) (off n : Nat) :
    readSlot s (some i) off n = none := if_neg (by simp [h])

/-- R189's payload: a status byte, then the block or zeros. -/
def queryBody (block : Option Bytes) : Bytes := block.elim (0x01#8 :: zeros 16) (0x00#8 :: ·)

theorem queryBlockOpA_eq {n : Byte} {off : Nat} (hoff : offA s.cfg n = .ok off) (slot : Option Nat) (seq : Byte) :
    queryBlockOpA s slot n seq = .ok (aResp s.cfg seq (queryBody (readSlot s slot off 16))) := by
  cases slot with
  | none => simp only [queryBlockOpA, hoff]; rfl
  | some i =>
    cases hp : (s.slotAt i).present with
    | true => simp only [queryBlockOpA, hoff, readSlot_of_present hp, hp]; rfl
    | false => simp only [queryBlockOpA, hoff, readSlot_of_absent hp, hp]; rfl

theorem queryBlockBySelector_eq {sel n : Byte} {slot : Option Nat} {off : Nat} (hslot : resolveA s sel = .ok slot)
    (hoff : offA s.cfg n = .ok off) (seq : Byte) :
    queryBlockBySelector s sel n seq = .ok (aResp s.cfg seq (queryBody (readSlot s slot off 16))) := by
  simp only [queryBlockBySelector, hslot, queryBlockOpA_eq hoff]

theorem exec_aQueryBlock (seq sel blk : Byte) (t : FrameTail) (s : State) :
    exec (.aQueryBlock seq sel blk t) s =
      commandA (aFrame 0xA2#8 seq [sel, blk] t) (fun s => readOnly s (queryBlockBySelector s sel blk seq)) s := rfl

/-- Settles O19: the reply is `queryBody` of what the slot holds at the block's offset. -/
theorem queryBlockFamilyA : Obligations.QueryBlockFamilyA := by
  intro seq sel blk t s slot hf hslot hblk hlen
  have hread := queryBlockBySelector_eq hslot (offA_of_le hblk hlen) seq
  refine ⟨queryBody (readSlot s slot (blockOffsetA blk) 16), fun i hi hp => ?_, fun i hi hp => ?_, fun hnone => ?_,
    onFamily_returnBytes hf hread, fun hq => ?_⟩
  · rw [hi, readSlot_of_present hp]; rfl
  · rw [hi, readSlot_of_absent hp]; rfl
  · rw [hnone]; rfl
  · rw [exec_aQueryBlock]; exact commandA_readOnly hf hq hread

theorem getFigureIdentifierOp_eq (s : State) (slot : Option Nat) (seq : Byte) :
    getFigureIdentifierOp s slot seq =
      aResp s.cfg seq ((readSlot s slot s.cfg.uidOffset 7).getD (zeros 7)) := by
  cases slot with
  | none => rfl
  | some i =>
    cases hp : (s.slotAt i).present with
    | true => simp only [getFigureIdentifierOp, readSlot_of_present hp, hp]; rfl
    | false => simp only [getFigureIdentifierOp, readSlot_of_absent hp, hp]; rfl

theorem figureIdentifierBySelector_eq {sel : Byte} {slot : Option Nat} (hslot : resolveA s sel = .ok slot) (seq : Byte) :
    figureIdentifierBySelector s sel seq =
      .ok (aResp s.cfg seq ((readSlot s slot s.cfg.uidOffset 7).getD (zeros 7))) := by
  simp only [figureIdentifierBySelector, hslot, getFigureIdentifierOp_eq]

theorem exec_aFigureId (seq sel : Byte) (t : FrameTail) (s : State) :
    exec (.aFigureId seq sel t) s =
      commandA (aFrame 0xB4#8 seq [sel] t) (fun s => readOnly s (figureIdentifierBySelector s sel seq)) s := rfl

/-- Settles O21: the reply is what the slot holds at UID_OFFSET, or zeros. -/
theorem figureIdentifier : Obligations.FigureIdentifier := by
  intro seq sel t s slot hf hslot
  have hread := figureIdentifierBySelector_eq hslot seq
  refine ⟨(readSlot s slot s.cfg.uidOffset 7).getD (zeros 7), fun i hi hp => ?_, fun i hi hp => ?_, fun hnone => ?_,
    onFamily_returnBytes hf hread, fun hq => ?_⟩
  · rw [hi, readSlot_of_present hp]; rfl
  · rw [hi, readSlot_of_absent hp]; rfl
  · rw [hnone]; rfl
  · rw [exec_aFigureId]; exact commandA_readOnly hf hq hread

/-! ## Blocks of Family B -/

/-- R190's reply before the zeros that fill the buffer. -/
def queryHead (i : Nat) (n : Byte) (block : Option Bytes) : Bytes :=
  block.elim (0x51#8 :: 0x01#8 :: n :: zeros 16) (0x51#8 :: (0x10#8 ||| BitVec.ofNat 8 i) :: n :: ·)

theorem queryBlockOpB_eq {n : Byte} {off : Nat} (hoff : offB s.cfg n = .ok off) (i : Nat) :
    queryBlockOpB s i n = .ok (bResp s.cfg (queryHead i n (readSlot s (some i) off 16))) := by
  cases hp : (s.slotAt i).present with
  | true => simp only [queryBlockOpB, hoff, readSlot_of_present hp, hp]; rfl
  | false => simp only [queryBlockOpB, hoff, readSlot_of_absent hp, hp]; rfl

theorem queryBlockBySlotByte_eq {sb n : Byte} {i off : Nat} (hslot : resolveB s sb = .ok i)
    (hoff : offB s.cfg n = .ok off) :
    queryBlockBySlotByte s sb n = .ok (s, some (bResp s.cfg (queryHead i n (readSlot s (some i) off 16)))) := by
  simp only [queryBlockBySlotByte, hslot, queryBlockOpB_eq hoff]

theorem exec_bQueryBlock (sb blk : Byte) (ex : Bytes) (s : State) :
    exec (.bQueryBlock sb blk ex) s =
      commandB (0x51#8 :: sb :: blk :: ex) (fun s => queryBlockBySlotByte s sb blk) s := rfl

/-- A reply shorter than its buffer is filled with zeros (R99). -/
theorem bResp_eq {c : Params} {head : Bytes} (h : head.length ≤ c.reportLen) :
    bResp c head = head ++ zeros (c.reportLen - head.length) := pad_eq h

theorem length_queryHead_readSlot (s : State) (i : Nat) (n : Byte) (off : Nat) :
    (queryHead i n (readSlot s (some i) off 16)).length = 19 := by
  cases hp : (s.slotAt i).present with
  | true => rw [readSlot_of_present hp]; simp [queryHead, State.memRead]
  | false => rw [readSlot_of_absent hp]; simp [queryHead]

/-- Settles O28: the 19 bytes of `queryHead` fit the buffer, and zeros fill the rest. -/
theorem queryBlockFamilyB : Obligations.QueryBlockFamilyB := by
  intro sb slot blk ex s hf hblk hlen hreport reply
  have hoff := offB_of_lt hblk hlen
  have hreply (i : Nat) : bResp s.cfg (queryHead i blk (readSlot s (some i) (16 * blk.toNat) 16)) = reply i := by
    rw [bResp_eq (by rw [length_queryHead_readSlot]; omega), length_queryHead_readSlot]
    cases hp : (s.slotAt i).present with
    | true => simp only [reply, readSlot_of_present hp, hp]; rfl
    | false => simp only [reply, readSlot_of_absent hp, hp]; rfl
  refine ⟨fun i hi hlt hq => ?_, fun i hi hlt => ?_⟩
  · have hslot : resolveB s sb = .ok i := by rw [resolveB_eq, hi, slotB_of_lt hlt]
    rw [← hreply i, exec_bQueryBlock]
    exact commandB_eq_some hf (queryBlockBySlotByte_eq hslot hoff) hq
  · have hrun : exec (.queryBlockB slot blk) s = onFamily .b s (returnBytes s (queryBlockOpB s i blk)) := by
      simp only [exec, execQueryBlockB, hi, slotB_of_lt hlt]
    rw [hrun, ← hreply i]
    exact onFamily_returnBytes hf (queryBlockOpB_eq hoff i)

end Sys2Proof.Machine
end

section
/-! PROOF. The registry's block writes (42_registry.md R191 to R193; 44_family_a.md R278; 45_family_b.md R311), and the
read of a block that was written (R382, S8 of 95_test_vectors.md). -/

namespace Sys2Proof.Machine

variable {s : State} {i off : Nat} {v : Bytes}

/-! ## The write-and-persist -/

theorem storeWrite_of_ok (ha : s.storeAnswer = true) (h : Nat) (b : Bytes) :
    storeWrite s h b = ({ s with
      storage := assocPut s.storage h b
      storeCalls := s.storeCalls ++ [.write h b true] }, true) := if_pos ha

theorem storeWrite_of_failed (ha : s.storeAnswer = false) (h : Nat) (b : Bytes) :
    storeWrite s h b = ({ s with
      storage := assocErase s.storage h
      storeCalls := s.storeCalls ++ [.write h b false] }, false) := if_neg (by simp [ha])

/-- A write whose slot is put back is undone (R192). -/
theorem memWrite_setSlot_slotAt (s : State) (i off : Nat) (v : Bytes) :
    (s.memWrite i off v).setSlot i (s.slotAt i) = s := by
  rw [State.memWrite, setSlot_setSlot, setSlot_slotAt]

/-- A slot that is absent, or has a handle, is written as R192 says. -/
theorem persisted_blockWritten (hh : HasHandle s i) (off : Nat) (v : Bytes) :
    BlockWritten s i off v (persisted s i off v).1 (persisted s i off v).2 := by
  obtain ⟨hp, heq⟩ | ⟨h, hp, hhandle, ha, heq⟩ | ⟨h, hp, hhandle, ha, heq⟩ | ⟨hp, hnone, -⟩ := persisted_cases s i off v
  · exact .inl ⟨hp, congrArg Prod.fst heq, congrArg Prod.snd heq⟩
  · refine .inr ⟨h, hp, hhandle, .inl ⟨ha, ?_, congrArg Prod.snd heq⟩⟩
    rw [heq, storeWrite_of_ok (s := s.memWrite i off v) ha]
    rfl
  · refine .inr ⟨h, hp, hhandle, .inr ⟨ha, ?_, congrArg Prod.snd heq⟩⟩
    have hslots : ((s.memWrite i off v).setSlot i (s.slotAt i)).slots = s.slots := by rw [memWrite_setSlot_slotAt]
    rw [heq, storeWrite_of_failed (s := s.memWrite i off v) ha]
    simp only [State.setSlot] at hslots ⊢
    rw [hslots]
    rfl
  · have := hh hp
    rw [hnone] at this
    cases this

@[simp] theorem persisted_cfg (s : State) (i off : Nat) (v : Bytes) : (persisted s i off v).1.cfg = s.cfg := by
  obtain ⟨d, st, sc, heq, -⟩ := persisted_frame s i off v
  rw [heq]
  rfl

@[simp] theorem persisted_tq (s : State) (i off : Nat) (v : Bytes) : (persisted s i off v).1.tq = s.tq := by
  obtain ⟨d, st, sc, heq, -⟩ := persisted_frame s i off v
  rw [heq]
  rfl

/-- A write takes no room in the transfer queue (R192, R234). -/
theorem canReply_persisted : CanReply (persisted s i off v).1 ↔ CanReply s := by
  rw [CanReply, persisted_cfg, persisted_tq, CanReply]

/-! ## Family A -/

theorem writeBlockOpA_some {n : Byte} (hoff : offA s.cfg n = .ok off) (i : Nat) (v : Bytes) (seq : Byte) :
    writeBlockOpA s (some i) n v seq = .ok ((persisted s i off v).1,
      aResp s.cfg seq [if (persisted s i off v).2 then 0x00#8 else 0x01#8]) := by
  simp only [writeBlockOpA, hoff]

theorem writeBlockOpA_none {n : Byte} (hoff : offA s.cfg n = .ok off) (v : Bytes) (seq : Byte) :
    writeBlockOpA s none n v seq = .ok (s, aResp s.cfg seq [0x01#8]) := by
  simp only [writeBlockOpA, hoff]

theorem writeBlockBySelector_eq {sel : Byte} {slot : Option Nat} (hslot : resolveA s sel = .ok slot) (n : Byte) (v : Bytes)
    (seq : Byte) : writeBlockBySelector s sel n v seq = writeBlockOpA s slot n v seq := by
  simp only [writeBlockBySelector, hslot]

theorem exec_aWriteBlock (seq sel blk : Byte) (v : Bytes) (t : FrameTail) (s : State) :
    exec (.aWriteBlock seq sel blk v t) s =
      commandA (aFrame 0xA3#8 seq (sel :: blk :: v) t) (fun s => writeBlockBySelector s sel blk v seq) s := rfl

/-- A unit call that writes returns its response (R101). -/
theorem onFamily_returnWith {f : Family} {e : Except Fault (State × Bytes)} {s1 : State} {r : Bytes}
    (hf : s.cfg.family = f) (hr : e = .ok (s1, r)) :
    onFamily f s (returnWith e) = .next { s1 with result := .bytes r } := by
  rw [onFamily_eq hf, hr]
  rfl

/-- Settles O20: a resolved slot is written through R192, and an unresolved selector writes nothing. -/
theorem writeBlockFamilyA : Obligations.WriteBlockFamilyA := by
  intro seq sel blk v t s hf hblk hlen
  have hoff := offA_of_le hblk hlen
  refine ⟨fun i hslot hh => ?_, fun hslot => ?_⟩
  · have hrun := (writeBlockBySelector_eq hslot blk v seq).trans (writeBlockOpA_some hoff i v seq)
    refine ⟨_, _, persisted_blockWritten hh _ v, onFamily_returnWith hf hrun, fun hq => ?_⟩
    rw [exec_aWriteBlock]
    exact commandA_eq hf hrun (canReply_persisted.2 hq)
  · have hrun := (writeBlockBySelector_eq hslot blk v seq).trans (writeBlockOpA_none hoff v seq)
    refine ⟨onFamily_returnWith hf hrun, fun hq => ?_⟩
    rw [exec_aWriteBlock]
    exact commandA_eq hf hrun hq

/-! ## Family B -/

theorem writeBlockOpB_eq {n : Byte} (hoff : offB s.cfg n = .ok off) (i : Nat) (v : Bytes) :
    writeBlockOpB s i n v = .ok ((persisted s i off v).1,
      bResp s.cfg [0x57#8, if (persisted s i off v).2 then 0x10#8 ||| BitVec.ofNat 8 i else 0x01#8, n]) := by
  simp only [writeBlockOpB, hoff]

theorem writeBlockBySlotByte_eq {sb n : Byte} (hslot : resolveB s sb = .ok i) (hoff : offB s.cfg n = .ok off) (v : Bytes) :
    writeBlockBySlotByte s sb n v = .ok ((persisted s i off v).1,
      some (bResp s.cfg [0x57#8, if (persisted s i off v).2 then 0x10#8 ||| BitVec.ofNat 8 i else 0x01#8, n])) := by
  simp only [writeBlockBySlotByte, hslot, writeBlockOpB_eq hoff]

theorem exec_bWriteBlock (sb blk : Byte) (v ex : Bytes) (s : State) :
    exec (.bWriteBlock sb blk v ex) s =
      commandB (0x57#8 :: sb :: blk :: (v ++ ex)) (fun s => writeBlockBySlotByte s sb blk v) s := rfl

/-- Settles O29: the slot is written through R192, and zeros fill the three-byte reply. -/
theorem writeBlockFamilyB : Obligations.WriteBlockFamilyB := by
  intro sb slot blk v ex s hf hblk hlen hreport reply
  have hoff := offB_of_lt hblk hlen
  have hreply (i : Nat) (ok : Bool) :
      bResp s.cfg [0x57#8, if ok then 0x10#8 ||| BitVec.ofNat 8 i else 0x01#8, blk] = reply i ok :=
    bResp_eq (Nat.le_trans (by decide : 3 ≤ 32) hreport)
  refine ⟨fun i hi hlt hh hq => ?_, fun i hi hlt hh => ?_⟩
  · have hslot : resolveB s sb = .ok i := by rw [resolveB_eq, hi, slotB_of_lt hlt]
    refine ⟨_, _, persisted_blockWritten hh _ v, ?_⟩
    rw [← hreply, exec_bWriteBlock]
    exact commandB_eq_some hf (writeBlockBySlotByte_eq hslot hoff v) (canReply_persisted.2 hq)
  · have hrun : exec (.writeBlockB slot blk v) s = onFamily .b s (returnWith (writeBlockOpB s i blk v)) := by
      simp only [exec, execWriteBlockB, hi, slotB_of_lt hlt]
    refine ⟨_, _, persisted_blockWritten hh _ v, ?_⟩
    rw [hrun, ← hreply]
    exact onFamily_returnWith hf (writeBlockOpB_eq hoff i v)

/-! ## Reading what was written -/

/-- A replacement that keeps a field of its slot keeps it in every slot. -/
theorem map_setSlot {β : Type} (f : Slot → β) {x : Slot} (h : f x = f (s.slotAt i)) :
    (s.setSlot i x).slots.map f = s.slots.map f := by
  have hput := congrArg (fun t => t.slots.map f) (setSlot_slotAt s i)
  simp only [State.setSlot_slots, List.map_set] at hput ⊢
  rw [h, hput]

/-- A block write changes no selector's slot (R195): presence and order-added stay. -/
theorem resolveA_of_persisted {u : State} (hcfg : u.cfg = s.cfg) (hslots : u.slots = (persisted s i off v).1.slots)
    (x : Byte) : resolveA u x = resolveA s x := by
  refine resolveA_congr hcfg ?_
  obtain ⟨d, st, sc, heq, -⟩ := persisted_frame s i off v
  rw [hslots, heq]
  exact map_setSlot (fun sl => (sl.present, sl.order)) rfl

/-- A block that was persisted is read back (R192, R60). -/
theorem readSlot_of_persisted {u : State} (hs : SlotsShaped s) (hi : i < s.slots.length)
    (hp : (s.slotAt i).present = true) (hh : HasHandle s i) (ha : s.storeAnswer = true)
    (hslots : u.slots = (persisted s i off v).1.slots) : readSlot u (some i) off v.length = some v := by
  obtain ⟨habs, -⟩ | ⟨h, -, -, ⟨-, heq, -⟩ | ⟨hfail, -⟩⟩ := persisted_blockWritten hh off v
  · rw [hp] at habs
    cases habs
  · have hslot : u.slotAt i = { s.slotAt i with data := (s.slotAt i).data.write off v } := by
      rw [State.slotAt, hslots, heq]
      exact slotAt_setSlot_self hi
    rw [readSlot_of_present (by rw [hslot, hp]), State.memRead, hslot, Memory.read_write_self (hs.wf_data i)]
  · rw [ha] at hfail
    cases hfail

/-- Settles O24: the query resolves to the slot and the block of the write, and reads the persisted bytes. -/
theorem writeThenQuery : Obligations.WriteThenQuery := by
  intro s u blk v i h hs hv hi hp hhandle ha
  have hh : HasHandle s i := fun _ => by rw [hhandle]; rfl
  refine ⟨fun seq seq' sel tl tl' hslot hexec hq => ?_, fun sb sb' ex ex' hsb hsb' hexec hq => ?_⟩
  · rw [exec_aWriteBlock] at hexec
    obtain ⟨hf, s1, reply, hrun, -, hu⟩ := commandA_next hexec
    rw [writeBlockBySelector_eq hslot] at hrun
    obtain ⟨off, hoff, ⟨hnone, -⟩ | ⟨j, hj, hs1, -⟩⟩ := writeBlockOpA_ok hrun
    · cases hnone
    · cases hj
      have hcfg : u.cfg = s.cfg := by rw [hu, hs1]; exact persisted_cfg s i off v
      have hslots : u.slots = (persisted s i off v).1.slots := by rw [hu, hs1]; rfl
      have hslot' : resolveA u sel = .ok (some i) := (resolveA_of_persisted hcfg hslots sel).trans hslot
      have hread := queryBlockBySelector_eq hslot' (hcfg.symm ▸ hoff) seq'
      rw [← hv, readSlot_of_persisted hs hi hp hh ha hslots, hcfg] at hread
      rw [exec_aQueryBlock]
      exact ⟨_, commandA_readOnly (hcfg.symm ▸ hf) hq hread, rfl⟩
  · rw [exec_bWriteBlock] at hexec
    obtain ⟨hf, s1, ⟨hrun, -⟩ | ⟨reply, hrun, -, hu⟩⟩ := commandB_next hexec
    · obtain ⟨j, r, -, -, hnone⟩ := writeBlockBySlotByte_ok hrun
      cases hnone
    · obtain ⟨j, r, hslot, hw, -⟩ := writeBlockBySlotByte_ok hrun
      rw [resolveB_eq, hsb] at hslot
      obtain ⟨rfl, hlt⟩ := slotB_ok hslot
      obtain ⟨off, hoff, hs1, -⟩ := writeBlockOpB_ok hw
      have hcfg : u.cfg = s.cfg := by rw [hu, hs1]; exact persisted_cfg s j off v
      have hslots : u.slots = (persisted s j off v).1.slots := by rw [hu, hs1]; rfl
      have hslot' : resolveB u sb' = .ok j := by rw [resolveB_eq, hsb', slotB_of_lt (hcfg.symm ▸ hlt)]
      have hread := queryBlockBySlotByte_eq hslot' (hcfg.symm ▸ hoff)
      rw [← hv, readSlot_of_persisted hs hi hp hh ha hslots, hcfg] at hread
      rw [exec_bQueryBlock]
      exact ⟨_, commandB_eq_some (hcfg.symm ▸ hf) hread hq, rfl⟩

end Sys2Proof.Machine
end

section
/-! PROOF. LoadFigure and RemoveFigure (42_registry.md R195 to R200, R204): each is its registry operation, which answers
where there is room and faults where there is none (60_exceptions.md R344, R346). -/

namespace Sys2Proof.Machine

variable {s t : State} {i h : Nat} {blob : Bytes} {slot : Byte}

/-! ## Pushes -/

theorem pushNotif_of_full (hroom : hasRoom s.cfg s.notif.length 1 = false) (e : Bytes) :
    pushNotif s e = .error (.queueOverflow .notif) := if_neg (by simp [hroom])

theorem pushStatus_of_full (hroom : hasRoom s.cfg (s.slotAt i).squeue.length 2 = false) (x y : StatusCode) :
    pushStatus s i x y = .error (.queueOverflow (.squeue i)) := if_neg (by simp [hroom])

/-! ## Order-added -/

theorem assignOrder_of_some {o : Nat} (ho : (s.slotAt i).order = some o) : assignOrder s i = .ok s := by
  simp only [assignOrder, ho]

theorem assignOrder_of_none (ho : (s.slotAt i).order = none) (hmax : s.orderCounter ≤ s.cfg.orderMax) :
    assignOrder s i = .ok { s.setSlot i { s.slotAt i with order := some s.orderCounter } with
      orderCounter := s.orderCounter + 1 } := by
  simp only [assignOrder, ho, if_neg (Nat.not_lt.2 hmax)]

/-- An order-added is kept or taken from the counter, and nothing of the queues changes (R196). -/
theorem assignOrder_of_free (hfree : OrderFree s i) :
    ∃ t, assignOrder s i = .ok t ∧ t.cfg = s.cfg ∧ t.notif = s.notif := by
  cases ho : (s.slotAt i).order with
  | some o => exact ⟨s, assignOrder_of_some ho, rfl, rfl⟩
  | none =>
    obtain hsome | hmax := hfree
    · rw [ho] at hsome
      cases hsome
    · exact ⟨_, assignOrder_of_none ho hmax, rfl, rfl⟩

/-- The counter is exhausted (R346). -/
theorem assignOrder_of_not_free (hfree : ¬ OrderFree s i) : assignOrder s i = .error .orderCounterOverflow := by
  obtain ⟨hsome, hmax⟩ := not_or.1 hfree
  have ho : (s.slotAt i).order = none := by simpa using hsome
  simp only [assignOrder, ho, if_pos (Nat.lt_of_not_le hmax)]

/-! ## LoadFigure on Family A -/

/-- The state in which a load assigns the order-added: the replaced handle closed, the slot filled (R196). -/
def filledSlot (s : State) (i : Nat) (blob : Bytes) (h : Nat) : State :=
  (closeReplaced s i).setSlot i (loadedSlot (s.slotAt i) blob h)

theorem filledSlot_eq (s : State) (i : Nat) (blob : Bytes) (h : Nat) :
    filledSlot s i blob h = { s with
      slots := s.slots.set i (loadedSlot (s.slotAt i) blob h)
      storeCalls := s.storeCalls ++
        if (s.slotAt i).present then (s.slotAt i).handle.toList.map StoreCall.close else [] } := by
  rw [filledSlot, closeReplaced_eq, Option.toList_map]
  rfl

@[simp] theorem filledSlot_cfg (s : State) (i : Nat) (blob : Bytes) (h : Nat) : (filledSlot s i blob h).cfg = s.cfg := by
  rw [filledSlot_eq]

@[simp] theorem filledSlot_notif (s : State) (i : Nat) (blob : Bytes) (h : Nat) :
    (filledSlot s i blob h).notif = s.notif := by
  rw [filledSlot_eq]

@[simp] theorem filledSlot_orderCounter (s : State) (i : Nat) (blob : Bytes) (h : Nat) :
    (filledSlot s i blob h).orderCounter = s.orderCounter := by
  rw [filledSlot_eq]

/-- A load keeps the order-added of its slot (R196). -/
@[simp] theorem filledSlot_order (s : State) (i : Nat) (blob : Bytes) (h : Nat) :
    ((filledSlot s i blob h).slotAt i).order = (s.slotAt i).order := by
  have hkept := slotAt_setSlot_field Slot.order (s := closeReplaced s i) (i := i) (x := loadedSlot (s.slotAt i) blob h)
    (by rw [closeReplaced_slotAt]; rfl)
  rwa [closeReplaced_slotAt] at hkept

theorem slotAt_filledSlot (hi : i < s.slots.length) (blob : Bytes) (h : Nat) :
    (filledSlot s i blob h).slotAt i = loadedSlot (s.slotAt i) blob h :=
  slotAt_setSlot_self (by rw [closeReplaced_eq]; exact hi)

theorem orderFree_filledSlot : OrderFree (filledSlot s i blob h) i ↔ OrderFree s i := by
  simp only [OrderFree, filledSlot_order, filledSlot_orderCounter, filledSlot_cfg]

theorem loadOpA_of_assignOrder (ha : assignOrder (filledSlot s i blob h) i = .ok t) :
    loadOpA s i blob h = pushNotif t (slotNotif t.cfg i (t.slotAt i).order .added) := by
  rw [filledSlot, ← closeReplaced_slotAt s i i] at ha
  simp only [loadOpA, ha]

/-- A load with an order-added to give and room for its notification answers (R196). -/
theorem exists_loadOpA (hfree : OrderFree s i) (hroom : hasRoom s.cfg s.notif.length 1 = true) (blob : Bytes) (h : Nat) :
    ∃ t, loadOpA s i blob h = .ok t := by
  obtain ⟨t, hassign, hcfg, hnotif⟩ := assignOrder_of_free (orderFree_filledSlot (blob := blob) (h := h).2 hfree)
  rw [filledSlot_cfg] at hcfg
  rw [filledSlot_notif] at hnotif
  exact ⟨_, (loadOpA_of_assignOrder hassign).trans (pushNotif_ok.2 ⟨by rw [hcfg, hnotif, hroom], rfl⟩)⟩

theorem loadOpA_of_not_free (hfree : ¬ OrderFree s i) (blob : Bytes) (h : Nat) :
    loadOpA s i blob h = .error .orderCounterOverflow := by
  have ha := assignOrder_of_not_free (mt (orderFree_filledSlot (blob := blob) (h := h)).1 hfree)
  rw [filledSlot, ← closeReplaced_slotAt s i i] at ha
  simp only [loadOpA, ha]

theorem loadOpA_of_full (hfree : OrderFree s i) (hroom : hasRoom s.cfg s.notif.length 1 = false) (blob : Bytes) (h : Nat) :
    loadOpA s i blob h = .error (.queueOverflow .notif) := by
  obtain ⟨t, hassign, hcfg, hnotif⟩ := assignOrder_of_free (orderFree_filledSlot (blob := blob) (h := h).2 hfree)
  rw [filledSlot_cfg] at hcfg
  rw [filledSlot_notif] at hnotif
  rw [loadOpA_of_assignOrder hassign, pushNotif_of_full (by rw [hcfg, hnotif, hroom])]

theorem loadedSlot_of_order {x : Slot} {o : Nat} (ho : x.order = some o) (blob : Bytes) (h : Nat) :
    loadedSlot x blob h =
      { x with present := true, data := Memory.ofBytes blob, handle := some h, order := some o } := by
  rw [← ho]
  rfl

/-- Every change of R196 to the slot that exists. -/
theorem loadOpA_eq (hi : i < s.slots.length) (hfree : OrderFree s i) (hroom : hasRoom s.cfg s.notif.length 1 = true)
    (blob : Bytes) (h : Nat) :
    loadOpA s i blob h = .ok { s with
      slots := s.slots.set i { s.slotAt i with
        present := true
        data := Memory.ofBytes blob
        handle := some h
        order := some ((s.slotAt i).order.getD s.orderCounter) }
      orderCounter := if (s.slotAt i).order.isSome then s.orderCounter else s.orderCounter + 1
      notif := s.notif ++ [slotNotif s.cfg i (some ((s.slotAt i).order.getD s.orderCounter)) .added]
      storeCalls := s.storeCalls ++
        if (s.slotAt i).present then (s.slotAt i).handle.toList.map StoreCall.close else [] } := by
  obtain ⟨t, ht⟩ := exists_loadOpA hfree hroom blob h
  obtain ⟨s3, hassign, -, rfl⟩ := loadOpA_ok ht
  have hfilled := slotAt_filledSlot hi blob h
  have hlen : i < (filledSlot s i blob h).slots.length := by simpa [filledSlot_eq] using hi
  obtain ⟨o, ho, hs3⟩ | ⟨ho, -, hs3⟩ := assignOrder_ok (s := filledSlot s i blob h) hassign
  · rw [ht, hs3, ho]
    rw [filledSlot_order] at ho
    rw [filledSlot_eq, ho, loadedSlot_of_order ho]
    rfl
  · have horder : (s3.slotAt i).order = some s.orderCounter := by
      rw [hs3, filledSlot_orderCounter]
      exact congrArg Slot.order (slotAt_setSlot_self hlen)
    rw [filledSlot_order] at ho
    rw [ht, horder, hs3, hfilled, filledSlot_eq, ho]
    simp only [State.setSlot, List.set_set]
    rfl

/-! ## LoadFigure on Family B -/

theorem loadOpB_eq_pushStatus (s : State) (i : Nat) (blob : Bytes) (h : Nat) :
    loadOpB s i blob h = pushStatus (filledSlot s i blob h) i .added .present := by
  rw [filledSlot, ← closeReplaced_slotAt s i i]
  rfl

/-- Every change of R197 to the slot that exists. -/
theorem loadOpB_eq (hi : i < s.slots.length) (hroom : hasRoom s.cfg (s.slotAt i).squeue.length 2 = true) (blob : Bytes)
    (h : Nat) :
    loadOpB s i blob h = .ok { s with
      slots := s.slots.set i { s.slotAt i with
        present := true
        data := Memory.ofBytes blob
        handle := some h
        squeue := (s.slotAt i).squeue ++ [.added, .present] }
      storeCalls := s.storeCalls ++
        if (s.slotAt i).present then (s.slotAt i).handle.toList.map StoreCall.close else [] } := by
  have hslot := slotAt_filledSlot hi blob h
  rw [loadOpB_eq_pushStatus, pushStatus_ok.2 ⟨by rw [filledSlot_cfg, hslot]; exact hroom, rfl⟩, hslot, filledSlot_eq]
  simp only [State.setSlot, List.set_set]
  rfl

theorem loadOpB_of_full (hi : i < s.slots.length) (hroom : hasRoom s.cfg (s.slotAt i).squeue.length 2 = false)
    (blob : Bytes) (h : Nat) : loadOpB s i blob h = .error (.queueOverflow (.squeue i)) := by
  rw [loadOpB_eq_pushStatus, pushStatus_of_full]
  rw [filledSlot_cfg, slotAt_filledSlot hi]
  exact hroom

/-! ## RemoveFigure -/

theorem closeHandle_eq (s : State) (h : Option Nat) :
    closeHandle s h = { s with storeCalls := s.storeCalls ++ h.toList.map StoreCall.close } := by
  cases h with
  | none => simp [closeHandle]
  | some h => rfl

/-- No slot but slot `i` holds a figure (R198). -/
def OthersAbsent (s : State) (i : Nat) : Prop := ∀ j, j < s.slots.length → j ≠ i → (s.slotAt j).present = false

/-- With slot `i` emptied the board is empty where no other slot holds a figure (R198). -/
theorem allAbsent_set_iff {x : Slot} (hx : x.present = false) (ht : t.slots = s.slots.set i x) :
    t.allAbsent = true ↔ OthersAbsent s i := by
  rw [State.allAbsent, ht, List.all_eq_true]
  constructor
  · intro hall j hj hne
    have hmem : s.slotAt j ∈ s.slots.set i x := by
      rw [slotAt_eq_getElem hj, ← List.getElem_set_ne (Ne.symm hne) (by simpa using hj)]
      exact List.getElem_mem _
    simpa using hall _ hmem
  · intro hothers y hy
    obtain ⟨j, hj, rfl⟩ := List.mem_iff_getElem.1 hy
    rw [List.length_set] at hj
    rw [List.getElem_set]
    split
    · rw [hx]; rfl
    · rw [← slotAt_eq_getElem hj, hothers j hj (Ne.symm ‹_›)]; rfl

/-- The changes of R199 before the reset policy. -/
def removedA (s : State) (i : Nat) : State := { s with
  slots := s.slots.set i { s.slotAt i with present := false, handle := none, order := none }
  notif := s.notif ++ [slotNotif s.cfg i (s.slotAt i).order .removed]
  storeCalls := s.storeCalls ++ (s.slotAt i).handle.toList.map StoreCall.close }

theorem removeOpA_eq (hroom : hasRoom s.cfg s.notif.length 1 = true) (i : Nat) :
    removeOpA s i = .ok (resetOrderWhenEmpty (removedA s i)) := by
  simp only [removeOpA, pushNotif_ok.2 ⟨hroom, rfl⟩, closeHandle_eq]
  rfl

theorem removeOpA_of_full (hroom : hasRoom s.cfg s.notif.length 1 = false) (i : Nat) :
    removeOpA s i = .error (.queueOverflow .notif) := by
  simp only [removeOpA, pushNotif_of_full hroom]

theorem removeOpB_eq_pushStatus (s : State) (i : Nat) :
    removeOpB s i = pushStatus ((closeHandle s (s.slotAt i).handle).setSlot i
      { s.slotAt i with present := false, handle := none }) i .removed .absent := by
  rw [removeOpB, closeHandle_slotAt]

/-- Every change of R200 to the slot that exists. -/
theorem removeOpB_eq (hi : i < s.slots.length) (hroom : hasRoom s.cfg (s.slotAt i).squeue.length 2 = true) :
    removeOpB s i = .ok { s with
      slots := s.slots.set i { s.slotAt i with
        present := false
        handle := none
        squeue := (s.slotAt i).squeue ++ [.removed, .absent] }
      storeCalls := s.storeCalls ++ (s.slotAt i).handle.toList.map StoreCall.close } := by
  have hslot := slotAt_setSlot_self (s := closeHandle s (s.slotAt i).handle) (i := i)
    (x := { s.slotAt i with present := false, handle := none }) (by rw [closeHandle_eq]; exact hi)
  rw [removeOpB_eq_pushStatus, pushStatus_ok.2 ⟨by rw [hslot, closeHandle_eq]; exact hroom, rfl⟩, hslot, closeHandle_eq]
  simp only [State.setSlot, List.set_set]

theorem removeOpB_of_full (hi : i < s.slots.length) (hroom : hasRoom s.cfg (s.slotAt i).squeue.length 2 = false) :
    removeOpB s i = .error (.queueOverflow (.squeue i)) := by
  rw [removeOpB_eq_pushStatus, pushStatus_of_full]
  rw [slotAt_setSlot_self (by rw [closeHandle_eq]; exact hi), closeHandle_eq]
  exact hroom

/-! ## The management requests -/

/-- How a registry operation ends a request: its fault, or its state with the result. -/
def endsWith (r : Result) : Except Fault State → Out
  | .error f => .fault f
  | .ok t => .next (t.ends r)

theorem exec_loadFigureA (hf : s.cfg.family = .a) (hslot : slot.toNat < s.cfg.nSlotsA)
    (hlen : blob.length = s.cfg.bufLenA) (h : Nat) :
    exec (.loadFigureA slot h blob) s = endsWith (.name (blobName s.cfg blob)) (loadOpA s slot.toNat blob h) := by
  simp only [exec, execLoadFigureA, onFamily_eq hf, if_neg (Nat.not_le.2 hslot), if_neg (absurd hlen)]
  rfl

theorem exec_loadFigureB (hf : s.cfg.family = .b) (hslot : slot.toNat < s.cfg.nSlotsB)
    (hlen : blob.length = s.cfg.bufLenB) (h : Nat) :
    exec (.loadFigureB slot h blob) s = endsWith (.name []) (loadOpB s slot.toNat blob h) := by
  simp only [exec, execLoadFigureB, onFamily_eq hf, if_neg (Nat.not_le.2 hslot), if_neg (absurd hlen)]
  rfl

theorem exec_removeFigureA (hf : s.cfg.family = .a) (hslot : slot.toNat < s.cfg.nSlotsA)
    (hp : (s.slotAt slot.toNat).present = true) :
    exec (.removeFigureA slot) s = endsWith .done (removeOpA s slot.toNat) := by
  simp only [exec, execRemoveFigureA, onFamily_eq hf, if_neg (Nat.not_le.2 hslot), if_pos hp]
  rfl

theorem exec_removeFigureB (hf : s.cfg.family = .b) (hslot : slot.toNat < s.cfg.nSlotsB)
    (hp : (s.slotAt slot.toNat).present = true) :
    exec (.removeFigureB slot) s = endsWith .done (removeOpB s slot.toNat) := by
  simp only [exec, execRemoveFigureB, onFamily_eq hf, if_neg (Nat.not_le.2 hslot), if_pos hp]
  rfl

theorem exec_removeFigureA_of_absent (hf : s.cfg.family = .a) (hslot : slot.toNat < s.cfg.nSlotsA)
    (hp : (s.slotAt slot.toNat).present = false) : exec (.removeFigureA slot) s = .next (s.ends .done) := by
  have habsent : ¬ (s.slotAt slot.toNat).present = true := by simp [hp]
  simp only [exec, execRemoveFigureA, onFamily_eq hf, if_neg (Nat.not_le.2 hslot), if_neg habsent]

theorem exec_removeFigureB_of_absent (hf : s.cfg.family = .b) (hslot : slot.toNat < s.cfg.nSlotsB)
    (hp : (s.slotAt slot.toNat).present = false) : exec (.removeFigureB slot) s = .next (s.ends .done) := by
  have habsent : ¬ (s.slotAt slot.toNat).present = true := by simp [hp]
  simp only [exec, execRemoveFigureB, onFamily_eq hf, if_neg (Nat.not_le.2 hslot), if_neg habsent]

/-- Settles O44: R196's changes are `loadOpA_eq`, and the name is the catalog's first match of the decrypted id. -/
theorem loadFigureFamilyA : Obligations.LoadFigureFamilyA := by
  intro slot h blob s hf hslot hi hlen hfree hroom x o plain id
  have hname : blobName s.cfg blob =
      ((s.cfg.catalog.find? fun e => e.numericId == id).map CatalogEntry.name).getD [] := by
    rw [blobName, findByNumericIdOp_eq]
    rfl
  rw [exec_loadFigureA hf hslot hlen, loadOpA_eq hi hfree hroom, hname]
  rfl

/-- Settles O45: R197's changes are `loadOpB_eq`. -/
theorem loadFigureFamilyB : Obligations.LoadFigureFamilyB := by
  intro slot h blob s hf hslot hi hlen hroom x
  rw [exec_loadFigureB hf hslot hlen, loadOpB_eq hi hroom]
  rfl

/-- Settles O47: the operations' changes, with the counter as the reset policy leaves it. -/
theorem removeFigure : Obligations.RemoveFigure := by
  intro slot s x
  refine ⟨fun hf hslot hp => exec_removeFigureA_of_absent hf hslot hp, fun hf hslot hp hroom => ?_,
    fun hf hslot hp => exec_removeFigureB_of_absent hf hslot hp, fun hf hslot hp hroom => ?_⟩
  · have hpolicy : (s.cfg.orderResetWhenEmpty = true ∧ (removedA s slot.toNat).allAbsent = true) ↔
        (s.cfg.orderResetWhenEmpty = true ∧ OthersAbsent s slot.toNat) :=
      and_congr_right fun _ => allAbsent_set_iff rfl rfl
    refine ⟨(resetOrderWhenEmpty (removedA s slot.toNat)).orderCounter, fun hreset => ?_, fun hkeep => ?_, ?_⟩
    · rw [resetOrderWhenEmpty_eq]
      exact if_pos (hpolicy.2 hreset)
    · rw [resetOrderWhenEmpty_eq]
      exact if_neg (mt hpolicy.1 hkeep)
    · rw [exec_removeFigureA hf hslot hp, removeOpA_eq hroom, resetOrderWhenEmpty_eq]
      rfl
  · rw [exec_removeFigureB hf hslot hp, removeOpB_eq (lt_of_slotAt_present hp) hroom]
    rfl

end Sys2Proof.Machine
end

section
/-! PROOF. Requests that fail or fault (42_registry.md R196, R197, R199, R200, R205; 60_exceptions.md R343, R344, R346):
management requests outside the slots, with a blob of the wrong size or without room, and commands whose reply finds the
transfer queue full (43_transfer.md R234). -/

namespace Sys2Proof.Machine

variable {s s1 : State} {slot : Byte} {blob : Bytes}

/-! ## Management requests -/

theorem exec_loadFigureA_of_le (hf : s.cfg.family = .a) (hslot : s.cfg.nSlotsA ≤ slot.toNat) (h : Nat) (blob : Bytes) :
    exec (.loadFigureA slot h blob) s = .fault (.slotOutOfRange slot.toNat) :=
  (onFamily_eq hf _).trans (if_pos hslot)

theorem exec_loadFigureB_of_le (hf : s.cfg.family = .b) (hslot : s.cfg.nSlotsB ≤ slot.toNat) (h : Nat) (blob : Bytes) :
    exec (.loadFigureB slot h blob) s = .fault (.slotOutOfRange slot.toNat) :=
  (onFamily_eq hf _).trans (if_pos hslot)

theorem exec_removeFigureA_of_le (hf : s.cfg.family = .a) (hslot : s.cfg.nSlotsA ≤ slot.toNat) :
    exec (.removeFigureA slot) s = .fault (.slotOutOfRange slot.toNat) :=
  (onFamily_eq hf _).trans (if_pos hslot)

theorem exec_removeFigureB_of_le (hf : s.cfg.family = .b) (hslot : s.cfg.nSlotsB ≤ slot.toNat) :
    exec (.removeFigureB slot) s = .fault (.slotOutOfRange slot.toNat) :=
  (onFamily_eq hf _).trans (if_pos hslot)

/-- A blob that is no figure file of the family is a failure (R205). -/
theorem exec_loadFigureA_of_length_ne (hf : s.cfg.family = .a) (hslot : slot.toNat < s.cfg.nSlotsA)
    (hlen : blob.length ≠ s.cfg.bufLenA) (h : Nat) :
    exec (.loadFigureA slot h blob) s = .next { s with result := .failure } :=
  (onFamily_eq hf _).trans ((if_neg (Nat.not_le.2 hslot)).trans (if_pos hlen))

theorem exec_loadFigureB_of_length_ne (hf : s.cfg.family = .b) (hslot : slot.toNat < s.cfg.nSlotsB)
    (hlen : blob.length ≠ s.cfg.bufLenB) (h : Nat) :
    exec (.loadFigureB slot h blob) s = .next { s with result := .failure } :=
  (onFamily_eq hf _).trans ((if_neg (Nat.not_le.2 hslot)).trans (if_pos hlen))

/-! ## Commands whose reply finds no room -/

theorem pushTq_of_full (hcfg : s1.cfg = s.cfg) (htq : s1.tq = s.tq) (hq : ¬ CanReply s) (e : Bytes) :
    pushTq s1 e = .error (.queueOverflow .tq) := if_neg (by rwa [hcfg, htq])

/-- A Family A command that ran, but whose reply finds no room, faults (R260, R344). -/
theorem commandA_of_full {p reply : Bytes} {run : State → Except Fault (State × Bytes)} (hf : s.cfg.family = .a)
    (hq : ¬ CanReply s) (hrun : run s = .ok (s1, reply)) (hcfg : s1.cfg = s.cfg) (htq : s1.tq = s.tq) :
    commandA p run s = .fault (.queueOverflow .tq) := by
  simp only [commandA, onFamily_eq hf, hrun, pushTq_of_full hcfg htq hq]
  rfl

/-- A Family B command that ran, but whose reply finds no room, faults (R300, R344). -/
theorem commandB_of_full {p reply : Bytes} {run : State → Except Fault (State × Option Bytes)} (hf : s.cfg.family = .b)
    (hq : ¬ CanReply s) (hrun : run s = .ok (s1, some reply)) (hcfg : s1.cfg = s.cfg) (htq : s1.tq = s.tq) :
    commandB p run s = .fault (.queueOverflow .tq) := by
  simp only [commandB, onFamily_eq hf, hrun, pushTq_of_full hcfg htq hq]
  rfl

theorem blankCommand_of_full (hf : s.cfg.family = .a) (hq : ¬ CanReply s) (cmd seq : Byte) (t : FrameTail) :
    blankCommand cmd seq t s = .fault (.queueOverflow .tq) := commandA_of_full hf hq rfl rfl rfl

theorem commandA_readOnly_of_full {p r : Bytes} {read : State → Except Fault Bytes} (hf : s.cfg.family = .a)
    (hq : ¬ CanReply s) (hr : read s = .ok r) :
    commandA p (fun s => readOnly s (read s)) s = .fault (.queueOverflow .tq) :=
  commandA_of_full hf hq (by rw [hr]; rfl) rfl rfl

/-! ### What the commands of this part run -/

theorem exec_aActivate (seq : Byte) (t : FrameTail) (s : State) :
    exec (.aActivate seq t) s = commandA (aFrame 0x80#8 seq [] t)
      (fun s => .ok (activateOp s, pad s.cfg.activationFrame.toList s.cfg.reportLen)) s := rfl

theorem exec_aSeed (seq : Byte) (x : U64) (t : FrameTail) (s : State) :
    exec (.aSeed seq x t) s = commandA (aFrame 0x81#8 seq (tobe64 x) t)
      (fun s => .ok (generateSeedOp (descrambleOp s.cfg x) s, blankAck s.cfg seq)) s := rfl

theorem exec_aNextRandom (seq : Byte) (t : FrameTail) (s : State) :
    exec (.aNextRandom seq t) s = commandA (aFrame 0x83#8 seq [] t) (nextRandomReply seq) s := rfl

theorem exec_bActivate (arg : Byte) (ex : Bytes) (s : State) :
    exec (.bActivate arg ex) s = commandB (0x41#8 :: arg :: ex)
      (fun s => .ok (if arg ≠ 0x00#8 then activateOp s else deactivateOp s,
        some (bResp s.cfg [0x41#8, arg, 0xFF#8, 0x77#8]))) s := rfl

theorem exec_bLedJ (zone : Byte) (v ex : Bytes) (s : State) :
    exec (.bLedJ zone v ex) s = commandB (0x4A#8 :: zone :: (v ++ ex))
      (fun s => .ok (setLed s 0x4A#8 zone v, some (bResp s.cfg [0x4A#8]))) s := rfl

theorem exec_bReady (x : Byte) (ex : Bytes) (s : State) :
    exec (.bReady x ex) s = commandB (0x52#8 :: x :: ex)
      (fun s => .ok (s, some (bResp s.cfg [0x52#8, 0x02#8, 0x1B#8]))) s := rfl

theorem exec_bVersion (b1 b2 b3 : Byte) (ex : Bytes) (s : State) :
    exec (.bVersion b1 b2 b3 ex) s = commandB (0x56#8 :: b1 :: b2 :: b3 :: ex)
      (fun s => .ok (s, some (bResp s.cfg [0x56#8, b1, b2, b3]))) s := rfl

/-- 0x83 on a seeded generator draws a word (R161, R268). -/
theorem nextRandomReply_of_seeded (hs : s.prng.seeded = true) (seq : Byte) :
    nextRandomReply seq s = .ok ({ s with prng := (prngStep s.prng).1 },
      aResp s.cfg seq (tobe64 (scrambleOp s.cfg (prngStep s.prng).2 s.garbage))) := by
  simp only [nextRandomReply, getNextOp_ok.2 ⟨hs, rfl, rfl⟩]

/-! ### The commands of registry slots -/

/-- 0xB4 with a slot in range, on a full queue. -/
theorem exec_aFigureId_of_full (hf : s.cfg.family = .a) (hq : ¬ CanReply s)
    (hslot : s.cfg.aSelector = .slotIndex → slot.toNat < s.cfg.nSlotsA) (seq : Byte) (t : FrameTail) :
    exec (.aFigureId seq slot t) s = .fault (.queueOverflow .tq) := by
  obtain ⟨i, hi⟩ := exists_resolveA hslot
  rw [exec_aFigureId]
  exact commandA_readOnly_of_full hf hq (figureIdentifierBySelector_eq hi seq)

/-- 0xA2 with a slot and a block in range, on a full queue. -/
theorem exec_aQueryBlock_of_full {blk : Byte} (hf : s.cfg.family = .a) (hq : ¬ CanReply s)
    (hslot : s.cfg.aSelector = .slotIndex → slot.toNat < s.cfg.nSlotsA) (hoff : offA s.cfg blk = .ok (blockOffsetA blk))
    (seq : Byte) (t : FrameTail) : exec (.aQueryBlock seq slot blk t) s = .fault (.queueOverflow .tq) := by
  obtain ⟨i, hi⟩ := exists_resolveA hslot
  rw [exec_aQueryBlock]
  exact commandA_readOnly_of_full hf hq (queryBlockBySelector_eq hi hoff seq)

/-- 0xA3 with a slot and a block in range, on a full queue: the write is discarded with the fault (R340). -/
theorem exec_aWriteBlock_of_full {blk : Byte} (hf : s.cfg.family = .a) (hq : ¬ CanReply s)
    (hslot : s.cfg.aSelector = .slotIndex → slot.toNat < s.cfg.nSlotsA) (hoff : offA s.cfg blk = .ok (blockOffsetA blk))
    (seq : Byte) (v : Bytes) (t : FrameTail) :
    exec (.aWriteBlock seq slot blk v t) s = .fault (.queueOverflow .tq) := by
  obtain ⟨i, hi⟩ := exists_resolveA hslot
  rw [exec_aWriteBlock]
  have hrun := writeBlockBySelector_eq hi blk v seq
  cases i with
  | none => exact commandA_of_full hf hq (hrun.trans (writeBlockOpA_none hoff v seq)) rfl rfl
  | some i =>
    exact commandA_of_full hf hq (hrun.trans (writeBlockOpA_some hoff i v seq)) (persisted_cfg _ _ _ _)
      (persisted_tq _ _ _ _)

/-- Settles O46: the checks of each management request in their order, then each command's reply refused by the queue. -/
theorem managementChecksAndFullQueues : Obligations.ManagementChecksAndFullQueues := by
  intro seq slot blk arg b1 b2 b3 x h blob v ex t s full
  refine ⟨fun hf hslot => ⟨exec_loadFigureA_of_le hf hslot h blob, exec_removeFigureA_of_le hf hslot⟩,
    fun hf hslot => ⟨exec_loadFigureB_of_le hf hslot h blob, exec_removeFigureB_of_le hf hslot⟩,
    fun hf hslot hlen => exec_loadFigureA_of_length_ne hf hslot hlen h,
    fun hf hslot hlen => exec_loadFigureB_of_length_ne hf hslot hlen h,
    fun hf hslot _ hlen hfree => ?_, fun hf hslot hroom => ⟨fun hlen hfree _ => ?_, fun hp => ?_⟩,
    fun hf hslot hi hroom => ⟨fun hlen => ?_, fun hp => ?_⟩, fun hf hq => ?_, fun hf hq => ?_⟩
  · rw [exec_loadFigureA hf hslot hlen, loadOpA_of_not_free hfree]; rfl
  · rw [exec_loadFigureA hf hslot hlen, loadOpA_of_full hfree hroom]; rfl
  · rw [exec_removeFigureA hf hslot hp, removeOpA_of_full hroom]; rfl
  · rw [exec_loadFigureB hf hslot hlen, loadOpB_of_full hi hroom]; rfl
  · rw [exec_removeFigureB hf hslot hp, removeOpB_of_full hi hroom]; rfl
  · have hblank := blankCommand_of_full hf hq
    refine ⟨?_, ?_, fun hseeded => ?_, hblank 0x90#8 seq t, hblank 0x91#8 seq t, hblank 0x92#8 seq t, hblank 0x93#8 seq t,
      hblank 0x94#8 seq t, hblank 0x95#8 seq t, hblank 0x96#8 seq t, hblank 0xB5#8 seq t, ?_,
      fun hslot => ⟨exec_aFigureId_of_full hf hq hslot seq t, fun hblk hlen => ?_⟩⟩
    · rw [exec_aActivate]
      exact commandA_of_full hf hq rfl rfl rfl
    · rw [exec_aSeed]
      exact commandA_of_full hf hq rfl rfl rfl
    · rw [exec_aNextRandom]
      exact commandA_of_full hf hq (nextRandomReply_of_seeded hseeded seq) rfl rfl
    · rw [exec_aPresentFigures]
      exact commandA_of_full hf hq rfl rfl rfl
    · have hoff := offA_of_le (Nat.le_of_lt_succ hblk) hlen
      exact ⟨exec_aQueryBlock_of_full hf hq hslot hoff seq t, exec_aWriteBlock_of_full hf hq hslot hoff seq v t⟩
  · refine ⟨?_, ?_, ?_, ?_, fun hslot hblk hlen => ?_⟩
    · rw [exec_bActivate]
      refine commandB_of_full hf hq rfl ?_ ?_
      · split <;> simp
      · split <;> simp
    · rw [exec_bLedJ]
      exact commandB_of_full hf hq rfl rfl rfl
    · rw [exec_bReady]
      exact commandB_of_full hf hq rfl rfl rfl
    · rw [exec_bVersion]
      exact commandB_of_full hf hq rfl rfl rfl
    · have hslot' : resolveB s slot = .ok (slot.toNat % 16) := by rw [resolveB_eq, slotB_of_lt hslot]
      have hoff := offB_of_lt hblk hlen
      rw [exec_bQueryBlock, exec_bWriteBlock]
      exact ⟨commandB_of_full hf hq (queryBlockBySlotByte_eq hslot' hoff) rfl rfl,
        commandB_of_full hf hq (writeBlockBySlotByte_eq hslot' hoff v) (persisted_cfg _ _ _ _) (persisted_tq _ _ _ _)⟩

end Sys2Proof.Machine
end

section
/-! PROOF. CreateFigure (42_registry.md R201, R202, S4 of 95_test_vectors.md): what each byte of the blob is, read off the
overwrites that build it, and the load of a created figure (S3). -/

namespace Sys2Proof.Machine

variable {s : State} {c : Params} {b v : Bytes}

/-! ## Overwritten strings -/

theorem getD_zeros (n k : Nat) : (zeros n).getD k 0#8 = 0#8 := by
  rw [zeros, List.getD_eq_getElem?_getD, List.getElem?_replicate]
  split <;> rfl

/-- A byte in range is the same under every default. -/
theorem getD_of_lt {k : Nat} (h : k < b.length) (d d' : Byte) : b.getD k d = b.getD k d' := by
  simp only [List.getD_eq_getElem?_getD, List.getElem?_eq_getElem h, Option.getD_some]

theorem getD_overwrite_byte (b : Bytes) (off : Nat) (x : Byte) {i : Nat} (h : i < b.length) :
    (overwrite b off [x]).getD i 0#8 = if i = off then x else b.getD i 0#8 := by
  rw [getD_overwrite b off [x] i h]
  by_cases hi : i = off
  · rw [if_pos hi, if_pos (by simp [hi]), hi, Nat.sub_self, List.getD_cons_zero]
  · rw [if_neg hi, if_neg (by rw [List.length_singleton]; omega)]

theorem take_overwrite (b v : Bytes) {n off : Nat} (h : n ≤ off) : (overwrite b off v).take n = b.take n := by
  induction b generalizing n off with
  | nil => rfl
  | cons x b ih =>
    cases n with
    | zero => rfl
    | succ n =>
      obtain ⟨off, rfl⟩ := Nat.exists_eq_add_of_le' (Nat.le_trans (Nat.succ_le_succ (Nat.zero_le n)) h)
      cases v with
      | nil => rfl
      | cons y v => rw [overwrite, List.take_succ_cons, List.take_succ_cons, ih (by omega)]

/-- A part of a string is known by its bytes. -/
theorem slice_eq_of_getD {off n : Nat} (hv : v.length = n) (hlen : off + n ≤ b.length)
    (h : ∀ k, k < n → b.getD (off + k) 0#8 = v.getD k 0#8) : slice b off n = v := by
  refine List.ext_getElem (by simp [slice]; omega) fun k hk hkv => ?_
  have hkn : k < n := hv ▸ hkv
  have hbyte := h k hkn
  simp only [List.getD_eq_getElem?_getD, List.getElem?_eq_getElem hkv,
    List.getElem?_eq_getElem (show off + k < b.length by omega), Option.getD_some] at hbyte
  simp only [slice, List.getElem_take, List.getElem_drop, hbyte]

/-! ## Numbers as bytes -/

theorem tobe16_eq (v : U16) : tobe16 v = [v.extractLsb' 8 8, v.extractLsb' 0 8] := by
  simp [tobe16, toBe, BitVec.extractLsb', Nat.shiftRight_eq_div_pow]

theorem tobe32_eq (v : U32) :
    tobe32 v = [v.extractLsb' 24 8, v.extractLsb' 16 8, v.extractLsb' 8 8, v.extractLsb' 0 8] := by
  simp [tobe32, toBe, BitVec.extractLsb', Nat.shiftRight_eq_div_pow]

/-! ## The metadata block -/

/-- The metadata block before its CRC is written (R202). -/
def metaFields (c : Params) (e : CatalogEntry) : Bytes :=
  overwrite (overwrite (overwrite (zeros 16) c.metaLayout.category [categoryByte c e.category])
    c.metaLayout.id (tobe16 e.numericId)) c.metaLayout.variant [e.variant]

/-- The CRC of the first 12 bytes (R202). -/
def metaCrc (c : Params) (e : CatalogEntry) : U32 := crc32Op c ((metaFields c e).take 12)

theorem metaBlock_eq (c : Params) (e : CatalogEntry) :
    metaBlock c e = overwrite (metaFields c e) c.metaLayout.crc (tobe32 (metaCrc c e)) := rfl

@[simp] theorem metaFields_length (c : Params) (e : CatalogEntry) : (metaFields c e).length = 16 := by simp [metaFields]

@[simp] theorem metaBlock_length (c : Params) (e : CatalogEntry) : (metaBlock c e).length = 16 := by simp [metaBlock_eq]

/-- What each byte of the metadata block is: the field written last of those that hold it, else zero (R202). -/
theorem metaBlock_getD (c : Params) (e : CatalogEntry) {k : Nat} (hk : k < 16) :
    (metaBlock c e).getD k 0#8 =
      if c.metaLayout.crc ≤ k ∧ k < c.metaLayout.crc + 4 then (tobe32 (metaCrc c e)).getD (k - c.metaLayout.crc) 0#8
      else if k = c.metaLayout.variant then e.variant
      else if c.metaLayout.id ≤ k ∧ k < c.metaLayout.id + 2 then (tobe16 e.numericId).getD (k - c.metaLayout.id) 0#8
      else if k = c.metaLayout.category then categoryByte c e.category
      else 0#8 := by
  rw [metaBlock_eq, getD_overwrite _ _ _ _ (by simpa using hk), tobe32_length, metaFields,
    getD_overwrite_byte _ _ _ (by simpa using hk), getD_overwrite _ _ _ _ (by simpa using hk), tobe16_length,
    getD_overwrite_byte _ _ _ (by simpa using hk), getD_zeros]

/-- A layout with its fields apart and its CRC behind the bytes it covers (R202). -/
theorem MetaLayout.wf_iff {m : MetaLayout} :
    m.wf = true ↔ m.category < 12 ∧ m.id + 2 ≤ 12 ∧ m.variant < 12 ∧ m.crc = 12 ∧ m.category ≠ m.variant ∧
      (m.category < m.id ∨ m.id + 2 ≤ m.category) ∧ (m.variant < m.id ∨ m.id + 2 ≤ m.variant) := by
  simp only [MetaLayout.wf, Bool.and_eq_true, decide_eq_true_eq, and_assoc]

/-- The numeric id stands at its place in the block (R202). -/
theorem slice_metaBlock_id (hwf : c.metaLayout.wf = true) (e : CatalogEntry) :
    slice (metaBlock c e) c.metaLayout.id 2 = tobe16 e.numericId := by
  obtain ⟨-, hid, -, hcrc, -, -, hvariant⟩ := MetaLayout.wf_iff.1 hwf
  refine slice_eq_of_getD (tobe16_length _) (by rw [metaBlock_length]; omega) fun k hk => ?_
  rw [metaBlock_getD c e (by omega), if_neg (by omega), if_neg (by omega), if_pos (by omega), Nat.add_sub_cancel_left]

/-- The CRC stands at its place in the block (R202). -/
theorem slice_metaBlock_crc (hwf : c.metaLayout.wf = true) (e : CatalogEntry) :
    slice (metaBlock c e) c.metaLayout.crc 4 = tobe32 (metaCrc c e) := by
  obtain ⟨-, -, -, hcrc, -⟩ := MetaLayout.wf_iff.1 hwf
  refine slice_eq_of_getD (tobe32_length _) (by rw [metaBlock_length]; omega) fun k hk => ?_
  rw [metaBlock_getD c e (by omega), if_pos (by omega), Nat.add_sub_cancel_left]

/-- The block is that of R202. -/
theorem metaBlock_metadataBlock (hwf : s.cfg.metaLayout.wf = true) (e : CatalogEntry) :
    MetadataBlock s e (metaBlock s.cfg e) := by
  obtain ⟨hcategory, hid, hvariant, hcrc, hne, hcategoryId, hvariantId⟩ := MetaLayout.wf_iff.1 hwf
  have hbyte {k : Nat} (hk : k < 16) : (metaBlock s.cfg e).getD k 0xFF#8 = (metaBlock s.cfg e).getD k 0#8 :=
    getD_of_lt (by rw [metaBlock_length]; exact hk) _ _
  refine ⟨metaBlock_length _ _, ?_, ?_, ?_, ⟨metaCrc s.cfg e, ?_, ?_⟩, fun k hk hk1 hk2 hk3 hk4 => ?_⟩
  · rw [hbyte (by omega), metaBlock_getD _ _ (by omega), if_neg (by omega), if_neg hne, if_neg (by omega), if_pos rfl]
  · rw [slice_metaBlock_id hwf, tobe16_eq]
  · rw [hbyte (by omega), metaBlock_getD _ _ (by omega), if_neg (by omega), if_pos rfl]
  · rw [exec_crc32, metaBlock_eq, take_overwrite _ _ (Nat.le_of_eq hcrc.symm)]
    rfl
  · rw [slice_metaBlock_crc hwf, tobe32_eq]
  · rw [hbyte hk, metaBlock_getD _ _ hk, if_neg hk4, if_neg hk2, if_neg hk3, if_neg hk1]

/-! ## The blob -/

@[simp] theorem deriveKeyOp_length (c : Params) (uid : Bytes) : (deriveKeyOp c uid).length = 16 := by
  simp [deriveKeyOp_eq]

/-- The 16 bytes of one block written over a string (R201). -/
theorem getD_overwrite_block (b fill : Bytes) (hfill : fill.length = 16) (u : Nat) {a : Nat} (h : a < b.length) :
    (overwrite b (16 * u) fill).getD a 0#8 = if a / 16 = u then fill.getD (a % 16) 0#8 else b.getD a 0#8 := by
  rw [getD_overwrite b _ _ a h, hfill]
  by_cases ha : a / 16 = u
  · rw [if_pos ha, if_pos (by omega), show a - 16 * u = a % 16 by omega]
  · rw [if_neg ha, if_neg (by omega)]

@[simp] theorem fillBlocks_length (c : Params) (fill : Bytes) (n u : Nat) (b : Bytes) :
    (fillBlocks c fill n u b).length = b.length := by
  induction n generalizing u b with
  | zero => rfl
  | succ n ih => rw [fillBlocks, ih]; split <;> simp

/-- The filler stands in every block of its range but those of the identifier and the metadata (R201). -/
theorem getD_fillBlocks (c : Params) {fill : Bytes} (hfill : fill.length = 16) (n u : Nat) {a : Nat} (h : a < b.length) :
    (fillBlocks c fill n u b).getD a 0#8 =
      if (u ≤ a / 16 ∧ a / 16 < u + n) ∧ a / 16 ≠ c.uidOffset / 16 ∧ a / 16 ≠ c.metaOffset / 16 then
        fill.getD (a % 16) 0#8
      else b.getD a 0#8 := by
  induction n generalizing u b with
  | zero => rw [fillBlocks, if_neg (by omega)]
  | succ n ih =>
    rw [fillBlocks]
    by_cases hu : u ≠ c.uidOffset / 16 ∧ u ≠ c.metaOffset / 16
    · rw [if_pos hu, ih _ (by simpa using h), getD_overwrite_block b fill hfill u h]
      by_cases ha : a / 16 = u
      · rw [if_pos ha, ite_self, if_pos (by omega)]
      · rw [if_neg ha]
        exact ite_congr (propext (by omega)) (fun _ => rfl) fun _ => rfl
    · rw [if_neg hu, ih _ h]
      exact ite_congr (propext (by omega)) (fun _ => rfl) fun _ => rfl

@[simp] theorem putMarkers_length (ms : List (Nat × Byte)) (b : Bytes) : (putMarkers ms b).length = b.length := by
  induction ms generalizing b with
  | nil => rfl
  | cons m ms ih => rw [putMarkers, ih, overwrite_length]

/-- At each offset the last marker stands, where there is one (R201). -/
theorem getD_putMarkers (ms : List (Nat × Byte)) {a : Nat} (h : a < b.length) :
    (putMarkers ms b).getD a 0#8 = ((ms.reverse.find? fun m => m.1 == a).map Prod.snd).getD (b.getD a 0#8) := by
  induction ms generalizing b with
  | nil => rfl
  | cons m ms ih =>
    rw [putMarkers, ih (by simpa using h), List.reverse_cons, List.find?_append, getD_overwrite_byte b _ _ h]
    cases ms.reverse.find? fun m => m.1 == a with
    | some m' => rfl
    | none =>
      by_cases hm : a = m.1
      · simp [hm]
      · simp [hm, Ne.symm hm]

/-- The key of a figure's identifier (R201). -/
def figureKey (c : Params) (e : CatalogEntry) : Bytes := deriveKeyOp c e.uid.toList

/-- The encrypted metadata block (R201). -/
def hiddenBlock (c : Params) (e : CatalogEntry) : Bytes := cipherEncrypt c (figureKey c e) (metaBlock c e)

/-- The encrypted blank filler (R201). -/
def fillerBlock (c : Params) (e : CatalogEntry) : Bytes := cipherEncrypt c (figureKey c e) (zeros 16)

theorem hiddenBlock_length (c : Params) (e : CatalogEntry) : (hiddenBlock c e).length = 16 :=
  length_cipherEncrypt c (deriveKeyOp_length _ _) (metaBlock_length _ _)

theorem fillerBlock_length (c : Params) (e : CatalogEntry) : (fillerBlock c e).length = 16 :=
  length_cipherEncrypt c (deriveKeyOp_length _ _) (zeros_length _)

theorem figureBlob_eq (c : Params) (e : CatalogEntry) :
    figureBlob c e = putMarkers c.markers (fillBlocks c (fillerBlock c e) 20 0
      (overwrite (overwrite (zeros c.bufLenA) c.uidOffset e.uid.toList) c.metaOffset (hiddenBlock c e))) := rfl

theorem figureBlob_length (c : Params) (e : CatalogEntry) : (figureBlob c e).length = c.bufLenA := by
  simp [figureBlob_eq]

/-- The blob is that of R201. -/
theorem figureBlob_figureBytes (s : State) (e : CatalogEntry) :
    FigureBytes s e (hiddenBlock s.cfg e) (fillerBlock s.cfg e) (figureBlob s.cfg e) := by
  refine ⟨figureBlob_length _ _, fun a ha => ?_⟩
  rw [figureBlob_eq, getD_putMarkers _ (by simpa using ha)]
  cases s.cfg.markers.reverse.find? fun m => m.1 == a with
  | some m => rfl
  | none =>
    rw [getD_fillBlocks _ (fillerBlock_length _ _) _ _ (by simpa using ha), getD_overwrite _ _ _ _ (by simpa using ha),
      hiddenBlock_length, getD_overwrite _ _ _ _ (by simpa using ha), Vector.length_toList, getD_zeros]
    simp only [Nat.zero_le, true_and, Nat.zero_add]
    rfl

/-! ## CreateFigure -/

theorem exec_createFigure (hf : s.cfg.family = .a) (h : Nat) (id : U16) :
    exec (.createFigure h id) s = .next (createFigureOp s h id) := onFamily_eq hf _

theorem createFigureOp_of_none {id : U16} (he : entryById s.cfg.catalog id = none) (h : Nat) :
    createFigureOp s h id = { s with result := .failure } := by
  simp only [createFigureOp, he]
  rfl

theorem createFigureOp_of_ok {id : U16} {e : CatalogEntry} (he : entryById s.cfg.catalog id = some e)
    (ha : s.storeAnswer = true) (h : Nat) :
    createFigureOp s h id = { s with
      storage := assocPut s.storage h (figureBlob s.cfg e)
      storeCalls := s.storeCalls ++ [.write h (figureBlob s.cfg e) true]
      result := .success } := by
  simp only [createFigureOp, he, storeWrite_of_ok ha]
  rfl

theorem createFigureOp_of_failed {id : U16} {e : CatalogEntry} (he : entryById s.cfg.catalog id = some e)
    (ha : s.storeAnswer = false) (h : Nat) :
    createFigureOp s h id = { s with
      storage := assocErase s.storage h
      storeCalls := s.storeCalls ++ [.write h (figureBlob s.cfg e) false]
      result := .failure } := by
  simp only [createFigureOp, he, storeWrite_of_failed ha]
  rfl

/-- Settles O48: the blob is `figureBlob`, whose bytes and whose metadata block are those of R201 and R202. -/
theorem createFigureResult : Obligations.CreateFigureResult := by
  intro h id s hf
  refine ⟨fun hnone => ?_, fun e hfind hwf => ?_⟩
  · have he : entryById s.cfg.catalog id = none := by
      rw [entryById_eq_find?, List.find?_eq_none]
      simpa using hnone
    rw [exec_createFigure hf, createFigureOp_of_none he]
  · rw [← entryById_eq_find?] at hfind
    refine ⟨figureKey s.cfg e, metaBlock s.cfg e, hiddenBlock s.cfg e, fillerBlock s.cfg e, figureBlob s.cfg e,
      metaBlock_metadataBlock hwf e, exec_deriveKey _ s, exec_encryptBlock _ _ s, exec_encryptBlock _ _ s,
      figureBlob_figureBytes s e, fun ha => ?_, fun ha => ?_⟩
    · rw [exec_createFigure hf, createFigureOp_of_ok hfind ha]
    · rw [exec_createFigure hf, createFigureOp_of_failed hfind ha]

/-! ## Loading a created figure -/

/-- Before the first marker, in the blocks of the identifier and the metadata, the blob holds these two (R201). -/
theorem figureBlob_getD_of_lt (huid : c.uidOffset = 0x00) (hmeta : c.metaOffset = 0x10)
    (hmarkers : ∀ m ∈ c.markers, 0x20 ≤ m.1) (e : CatalogEntry) {a : Nat} (ha : a < 0x20) (hlen : 0x20 ≤ c.bufLenA) :
    (figureBlob c e).getD a 0#8 =
      if 16 ≤ a then (hiddenBlock c e).getD (a - 16) 0#8 else if a < 7 then e.uid.toList.getD a 0#8 else 0#8 := by
  have hnone : (c.markers.reverse.find? fun m => m.1 == a) = none := by
    rw [List.find?_eq_none]
    intro m hm
    have := hmarkers m (List.mem_reverse.1 hm)
    simp only [beq_iff_eq]
    omega
  obtain ⟨-, hbytes⟩ := figureBlob_figureBytes (State.resetWith c []) e
  have hbyte := hbytes a (Nat.lt_of_lt_of_le ha hlen)
  simp only [State.resetWith, hnone, huid, hmeta] at hbyte
  rw [hbyte, if_neg (by omega)]
  refine ite_congr (propext (by omega)) (fun _ => rfl) fun _ => ?_
  exact ite_congr (propext (by omega)) (fun _ => rfl) fun _ => rfl

/-- Under the decided layout the load finds the identifier and decrypts the metadata (R196, R201, S3). -/
theorem blobId_figureBlob (huid : c.uidOffset = 0x00) (hmeta : c.metaOffset = 0x10) (hwf : c.metaLayout.wf = true)
    (hlen : 0x20 ≤ c.bufLenA) (hmarkers : ∀ m ∈ c.markers, 0x20 ≤ m.1) (e : CatalogEntry) :
    blobId c (figureBlob c e) = e.numericId := by
  have hidentifier : slice (figureBlob c e) c.uidOffset 7 = e.uid.toList := by
    refine slice_eq_of_getD Vector.length_toList (by rw [figureBlob_length]; omega) fun k hk => ?_
    rw [huid, Nat.zero_add, figureBlob_getD_of_lt huid hmeta hmarkers e (by omega) hlen, if_neg (by omega), if_pos hk]
  have hhidden : slice (figureBlob c e) c.metaOffset 16 = hiddenBlock c e := by
    refine slice_eq_of_getD (hiddenBlock_length c e) (by rw [figureBlob_length]; omega) fun k hk => ?_
    rw [hmeta, figureBlob_getD_of_lt huid hmeta hmarkers e (by omega) hlen, if_pos (by omega), Nat.add_sub_cancel_left]
  have hplain : decryptBlockOp c (deriveKeyOp c e.uid.toList) (hiddenBlock c e) = metaBlock c e :=
    cipherDecrypt_cipherEncrypt c (deriveKeyOp_length _ _) (metaBlock_length c e)
  simp only [blobId, hidentifier, hhidden, hplain, slice_metaBlock_id hwf, be16_tobe16]

/-- An entry found by its id has that id (R180). -/
theorem numericId_of_entryById {es : List CatalogEntry} {id : U16} {e : CatalogEntry} (he : entryById es id = some e) :
    e.numericId = id := by
  rw [entryById_eq_find?] at he
  simpa using List.find?_some he

/-- Settles O49: the load decrypts what the creation encrypted, and looks the id up in the same catalog. -/
theorem createThenLoad : Obligations.CreateThenLoad := by
  intro s t h id e slot hf huid hmeta hlayout hlen hmarkers he ha hcreate hslot hfree hroom
  rw [exec_createFigure hf, createFigureOp_of_ok he ha] at hcreate
  have ht := (Host.Outcome.next.inj hcreate).symm
  have hcfg : t.cfg = s.cfg := by rw [ht]
  have hwf : s.cfg.metaLayout.wf = true := by rw [hlayout]; rfl
  have hname : blobName t.cfg (figureBlob s.cfg e) = e.name := by
    rw [hcfg, blobName, blobId_figureBlob huid hmeta hwf hlen hmarkers e, numericId_of_entryById he, findByNumericIdOp, he]
    rfl
  have hfree' : OrderFree t slot.toNat := by rw [ht]; exact hfree
  obtain ⟨u, hload⟩ := exists_loadOpA hfree' (by rw [ht]; exact hroom) (figureBlob s.cfg e) h
  refine ⟨figureBlob s.cfg e, u.ends (.name e.name), ?_, ?_, rfl⟩
  · rw [ht]
    exact (assocGet_put _ _ _ _).trans (if_pos rfl)
  · rw [exec_loadFigureA (hcfg.symm ▸ hf) (hcfg.symm ▸ hslot) (by rw [hcfg, figureBlob_length]), hload, hname]
    rfl

end Sys2Proof.Machine
end

section
/-! PROOF. The host transfer port (43_transfer.md R230 to R236, R240): a control transfer is the command its payload holds,
a command pushes at most one reply, a poll takes at most one entry and answers it; the requests that are refused. -/

namespace Sys2Proof.Machine

variable {s t : State} {p : Bytes} {i : Instr}

/-! ## Control transfers (R232) -/

theorem exec_controlTransfer (p : Bytes) (s : State) : exec (.controlTransfer p) s = execControlTransfer p s := rfl

theorem execControlTransfer_of_error {e : Reject} (h : decodeCommand s.cfg p = .error e) :
    execControlTransfer p s = .next { s with result := .noResponse } := by
  simp only [execControlTransfer, h]
  rfl

theorem execControlTransfer_of_ok (h : decodeCommand s.cfg p = .ok i) : execControlTransfer p s = runCommand i s := by
  simp only [execControlTransfer, h]

/-- The dispatcher runs each of the 24 commands by the command's own rule (R260, R300), and turns every other instruction
away. -/
theorem runCommand_eq_exec (h : refusalOf (runCommand i s) = none) : runCommand i s = exec i s := by
  cases i with
  | aActivate | aSeed | aNextRandom | aBlank90 | aBlank91 | aBlank92 | aBlank93 | aBlank94 | aBlank95 | aBlank96
  | aPresentFigures | aQueryBlock | aWriteBlock | aFigureId | aBlankB5 | bActivate | bLedC | bLedJ | bLedL | bQueryBlock
  | bReady | bStatus | bVersion | bWriteBlock => rfl
  | _ => cases h

/-- Settles O7: a control transfer is never turned away, so what it runs is one of the 24 commands. -/
theorem controlTransferRunsTheCommand : Obligations.ControlTransferRunsTheCommand := by
  intro p i s hdecode
  have hrun := execControlTransfer_of_ok hdecode
  have hmeaning := refusalOf_execControlTransfer p s
  rw [hrun] at hmeaning
  exact hrun.trans (runCommand_eq_exec hmeaning)

/-- A payload that is the encoded form of a well-formed command runs that command (R90, R96, R232). -/
theorem exec_controlTransfer_of_encode (hwf : WellFormed s.cfg i = true) (hp : encode i = dispatched p) :
    exec (.controlTransfer p) s = exec i s := by
  have hdecode := decodeOfEncode s.cfg i hwf
  rw [hp] at hdecode
  exact controlTransferRunsTheCommand p i s hdecode

/-! ## Activation commands (R266, R302) -/

theorem pad_of_length {b : Bytes} {k n : Nat} (hb : b.length = k) (hk : k ≤ n) : pad b n = b ++ zeros (n - k) := by
  subst hb
  exact pad_eq hk

/-- 0x80 activates and queues the activation frame (R266). -/
theorem exec_aActivate_eq (hf : s.cfg.family = .a) (hq : CanReply s) (hlen : 32 ≤ s.cfg.reportLen) (seq : Byte)
    (tl : FrameTail) :
    exec (.aActivate seq tl) s = .next (replied { s with activated := true } (aFrame 0x80#8 seq [] tl)
      (s.cfg.activationFrame.toList ++ zeros (s.cfg.reportLen - 24)) s.cfg.dAEcho) := by
  have hframe : s.cfg.activationFrame.toList.length = 24 := Vector.length_toList
  rw [exec_aActivate, ← pad_of_length hframe (by omega)]
  exact commandA_eq hf rfl hq

/-- 'A' with argument 01 activates and queues `41 01 FF 77` (R302). -/
theorem exec_bActivate_one (hf : s.cfg.family = .b) (hq : CanReply s) (hlen : 32 ≤ s.cfg.reportLen) (ex : Bytes) :
    exec (.bActivate 0x01#8 ex) s = .next (replied { s with activated := true } (0x41#8 :: 0x01#8 :: ex)
      ([0x41#8, 0x01#8, 0xFF#8, 0x77#8] ++ zeros (s.cfg.reportLen - 4)) s.cfg.dBCtrl) := by
  have hreply : bResp s.cfg [0x41#8, 0x01#8, 0xFF#8, 0x77#8] = _ := pad_of_length (k := 4) rfl (by omega)
  rw [exec_bActivate, ← hreply]
  exact commandB_eq_some hf rfl hq

/-- Settles O8: each payload is the encoded form of the activation command of its family. -/
theorem controlTransferActivates : Obligations.ControlTransferActivates := by
  intro s hq hlen
  refine ⟨fun seq tl hwf => ?_, fun ex hf hex => ?_⟩
  · obtain ⟨hf, -⟩ := commandOk_iff.1 hwf
    exact (exec_controlTransfer_of_encode hwf rfl).trans (exec_aActivate_eq hf hq hlen seq tl)
  · have hwf : WellFormed s.cfg (.bActivate 0x01#8 ex) = true := decide_and_decide hf hex
    exact (exec_controlTransfer_of_encode hwf rfl).trans (exec_bActivate_one hf hq hlen ex)

/-! ## What a command does to the queues (R240) -/

/-- The transfer queue and the notifications are as they were. -/
def KeepsQueues (s t : State) : Prop := t.tq = s.tq ∧ t.notif = s.notif

/-- The operation of a command, where it succeeds, leaves the queues as they were. -/
def RunKeepsQueues {α : Type} (s : State) (e : Except Fault (State × α)) : Prop :=
  ∀ t r, e = .ok (t, r) → KeepsQueues s t

/-- The outcome, where it is a state, answers a triple, with at most one entry pushed to the transfer queue. -/
def OneReply (s : State) (o : Out) : Prop :=
  ∀ t, o = .next t →
    (∃ b n d, t.result = .triple b n d) ∧ (t.tq = s.tq ∨ ∃ e, t.tq = s.tq ++ [e]) ∧ t.notif = s.notif

theorem KeepsQueues.refl (s : State) : KeepsQueues s s := ⟨rfl, rfl⟩

theorem KeepsQueues.persisted (s : State) (i off : Nat) (v : Bytes) : KeepsQueues s (persisted s i off v).1 := by
  obtain ⟨d, st, sc, heq, -, -⟩ := persisted_frame s i off v
  rw [heq]
  exact ⟨rfl, rfl⟩

theorem RunKeepsQueues.ok {α : Type} {r : α} (h : KeepsQueues s t) : RunKeepsQueues s (.ok (t, r)) := fun _ _ e => by
  cases e
  exact h

theorem RunKeepsQueues.readOnly (e : Except Fault Bytes) : RunKeepsQueues s (readOnly s e) := fun _ _ h => by
  obtain ⟨rfl, -⟩ := readOnly_ok h
  exact .refl _

theorem RunKeepsQueues.nextRandomReply (seq : Byte) (s : State) : RunKeepsQueues s (nextRandomReply seq s) :=
  fun _ _ h => by
    obtain ⟨-, rfl, -⟩ := nextRandomReply_ok h
    exact ⟨rfl, rfl⟩

theorem RunKeepsQueues.writeBlockBySelector (s : State) (sel n : Byte) (v : Bytes) (seq : Byte) :
    RunKeepsQueues s (writeBlockBySelector s sel n v seq) := fun _ _ h => by
  obtain ⟨slot, -, hw⟩ := writeBlockBySelector_ok h
  obtain ⟨off, -, ⟨-, rfl, -⟩ | ⟨i, -, rfl, -⟩⟩ := writeBlockOpA_ok hw
  · exact .refl _
  · exact .persisted s i off v

theorem RunKeepsQueues.queryBlockBySlotByte (s : State) (sb blk : Byte) :
    RunKeepsQueues s (queryBlockBySlotByte s sb blk) := fun _ _ h => by
  obtain ⟨rfl, -⟩ := queryBlockBySlotByte_ok h
  exact .refl _

theorem RunKeepsQueues.writeBlockBySlotByte (s : State) (sb blk : Byte) (v : Bytes) :
    RunKeepsQueues s (writeBlockBySlotByte s sb blk v) := fun _ _ h => by
  obtain ⟨i, r, -, hw, -⟩ := writeBlockBySlotByte_ok h
  obtain ⟨off, -, rfl, -⟩ := writeBlockOpB_ok hw
  exact .persisted s i off v

/-- The one push of a Family A command is that of its reply (R260). -/
theorem OneReply.commandA {run : State → Except Fault (State × Bytes)} (h : RunKeepsQueues s (run s)) :
    OneReply s (commandA p run s) := fun _ hnext => by
  obtain ⟨-, s1, reply, hrun, -, rfl⟩ := commandA_next hnext
  obtain ⟨htq, hnotif⟩ := h s1 reply hrun
  exact ⟨⟨_, _, _, rfl⟩, .inr ⟨reply, congrArg (· ++ [reply]) htq⟩, hnotif⟩

/-- The one push of a Family B command is that of its reply, if it has one (R300). -/
theorem OneReply.commandB {run : State → Except Fault (State × Option Bytes)} (h : RunKeepsQueues s (run s)) :
    OneReply s (commandB p run s) := fun _ hnext => by
  obtain ⟨-, s1, ⟨hrun, rfl⟩ | ⟨reply, hrun, -, rfl⟩⟩ := commandB_next hnext
  · obtain ⟨htq, hnotif⟩ := h s1 none hrun
    exact ⟨⟨_, _, _, rfl⟩, .inl htq, hnotif⟩
  · obtain ⟨htq, hnotif⟩ := h s1 (some reply) hrun
    exact ⟨⟨_, _, _, rfl⟩, .inr ⟨reply, congrArg (· ++ [reply]) htq⟩, hnotif⟩

theorem blankCommand_oneReply (cmd seq : Byte) (tl : FrameTail) (s : State) : OneReply s (blankCommand cmd seq tl s) :=
  .commandA (.ok (.refl s))

/-- The operation of each of the 24 commands leaves the queues alone, so only its reply is pushed. -/
theorem runCommand_oneReply (i : Instr) (s : State) : OneReply s (runCommand i s) := by
  cases i with unfold runCommand
  | aActivate | aSeed | aPresentFigures => exact .commandA (.ok ⟨rfl, rfl⟩)
  | aBlank90 | aBlank91 | aBlank92 | aBlank93 | aBlank94 | aBlank95 | aBlank96 | aBlankB5 =>
    exact blankCommand_oneReply _ _ _ s
  | aNextRandom seq t => exact .commandA (.nextRandomReply seq s)
  | aQueryBlock | aFigureId => exact .commandA (.readOnly _)
  | aWriteBlock seq sel blk v t => exact .commandA (.writeBlockBySelector s sel blk v seq)
  | bActivate arg ex =>
    refine .commandB (.ok ?_)
    split
    · exact ⟨activateOp_tq s, activateOp_notif s⟩
    · exact ⟨deactivateOp_tq s, deactivateOp_notif s⟩
  | bLedC | bLedJ | bLedL => exact .commandB (.ok ⟨rfl, rfl⟩)
  | bReady | bStatus | bVersion => exact .commandB (.ok (.refl s))
  | bQueryBlock sb blk ex => exact .commandB (.queryBlockBySlotByte s sb blk)
  | bWriteBlock sb blk v ex => exact .commandB (.writeBlockBySlotByte s sb blk v)
  | _ => exact fun _ h => by cases h

/-! ## Polls (R233, R240) -/

/-- At most one entry is taken, the oldest of one of the two queues. -/
def PopsAtMostOne (s t : State) : Prop :=
  KeepsQueues s t ∨ (∃ e, s.tq = e :: t.tq ∧ t.notif = s.notif) ∨ ∃ e, s.notif = e :: t.notif ∧ t.tq = s.tq

theorem exists_pollOpA_respond (s : State) : ∃ t b d, pollOpA s = t.respond b d ∧ PopsAtMostOne s t := by
  obtain ⟨e, rest, hq, heq⟩ | ⟨-, e, rest, hq, heq⟩ | ⟨-, -, heq⟩ := pollOpA_cases s
  · exact ⟨_, _, _, heq, .inr (.inl ⟨e, hq, rfl⟩)⟩
  · exact ⟨_, _, _, heq, .inr (.inr ⟨e, hq, rfl⟩)⟩
  · exact ⟨s, _, _, heq, .inl (.refl s)⟩

theorem exists_pollOpB_respond (p : Bytes) (s : State) :
    ∃ t b d, pollOpB p s = t.respond b d ∧ PopsAtMostOne s t := by
  obtain ⟨-, heq⟩ | ⟨-, e, rest, hq, heq⟩ | ⟨-, -, heq⟩ := pollOpB_cases p s
  · exact ⟨s, _, _, heq, .inl (.refl s)⟩
  · exact ⟨_, _, _, heq, .inr (.inl ⟨e, hq, rfl⟩)⟩
  · exact ⟨_, _, _, heq, .inl ⟨rfl, rfl⟩⟩

theorem exec_interruptPoll (p : Bytes) (s : State) : exec (.interruptPoll p) s = execInterruptPoll p s := rfl

/-- A poll of either family takes at most one entry and answers (R233). -/
theorem exists_interruptPoll_respond (p : Bytes) (s : State) :
    ∃ t b d, exec (.interruptPoll p) s = .next (t.respond b d) ∧ PopsAtMostOne s t := by
  rw [exec_interruptPoll, execInterruptPoll]
  split
  · obtain ⟨t, b, d, heq, hpop⟩ := exists_pollOpA_respond s
    exact ⟨t, b, d, congrArg _ heq, hpop⟩
  · obtain ⟨t, b, d, heq, hpop⟩ := exists_pollOpB_respond p s
    exact ⟨t, b, d, congrArg _ heq, hpop⟩

/-- Settles O10: a payload that holds no command is ignored, a command pushes its reply alone, and a poll's answer leaves the
queues as the poll did. -/
theorem oneTransferOneStep : Obligations.OneTransferOneStep := by
  refine ⟨fun p s t hnext => ?_, fun p s t hnext => ?_⟩
  · rw [exec_controlTransfer] at hnext
    cases hdecode : decodeCommand s.cfg p with
    | error e =>
      rw [execControlTransfer_of_error hdecode] at hnext
      exact .inl (Host.Outcome.next.inj hnext).symm
    | ok i =>
      rw [execControlTransfer_of_ok hdecode] at hnext
      exact .inr (runCommand_oneReply i s t hnext)
  · obtain ⟨u, b, d, heq, hpop⟩ := exists_interruptPoll_respond p s
    obtain rfl := Host.Outcome.next.inj (heq.symm.trans hnext)
    exact hpop

/-- Settles O35: the count of the answer is the length of its bytes (R237). -/
theorem pollsAlwaysAnswer : Obligations.PollsAlwaysAnswer := fun p s => by
  obtain ⟨t, b, d, heq, -⟩ := exists_interruptPoll_respond p s
  exact ⟨t.respond b d, b, d, heq, rfl⟩

/-! ## Cancellation and refused requests (R231, R236, R203) -/

theorem exec_cancelTransfer (s : State) :
    exec .cancelTransfer s = .next { s with result := if s.inFlight then .busy else .success } := rfl

/-- Settles O11, by the in-flight bit. -/
theorem cancelTransfer : Obligations.CancelTransfer := by
  intro s
  rw [exec_cancelTransfer]
  exact ⟨fun h => by rw [if_pos h], fun h => by rw [h]; rfl⟩

theorem exec_bulkTransfer (p : Bytes) (s : State) : exec (.bulkTransfer p) s = raise (.refused .transferKind) := rfl

theorem exec_isochronousTransfer (p : Bytes) (s : State) :
    exec (.isochronousTransfer p) s = raise (.refused .transferKind) := rfl

theorem exec_createFigureB (h : Nat) (id : U16) (s : State) :
    exec (.createFigureB h id) s = raise (.refused .createFigureFamilyB) := rfl

/-- Settles O12: the three rules raise before they look at the state. -/
theorem refusedRequests : Obligations.RefusedRequests := fun s =>
  ⟨fun p => exec_bulkTransfer p s, fun p => exec_isochronousTransfer p s, fun h id => exec_createFigureB h id s⟩

end Sys2Proof.Machine
end

section
/-! PROOF. Family A control payloads (30_encoding.md R91, R92; 44_family_a.md R261, R263, R281): which payloads hold a
command, and the echo of those that do. -/

namespace Sys2Proof.Machine

variable {c : Params} {s t : State} {p : Bytes}

/-! ## Payloads that hold a command (R261, R281) -/

/-- A payload that splits is well-framed; its parts hold its command number and the `L - 2` data bytes. -/
theorem wellFramed_of_splitFrame {f : FrameParts} (h : splitFrame c p = .ok f) :
    WellFramed c p ∧ f.cmd = p.getD 2 0#8 ∧ (p.getD 1 0#8).toNat = 2 + f.data.length := by
  simp only [splitFrame, ite_error_eq_ok] at h
  obtain ⟨hthree, hmark, hl, hlen, hchk, hf⟩ := h
  obtain rfl := Except.ok.inj hf
  have hdata : (slice p 4 ((p.getD 1 0#8).toNat - 2)).length = (p.getD 1 0#8).toNat - 2 := slice_length (by omega)
  refine ⟨⟨Nat.le_of_not_lt hthree, Decidable.not_not.1 hmark, Nat.le_of_not_lt hl, Nat.le_of_not_lt hlen, fun hv => ?_⟩,
    rfl, ?_⟩
  · exact Decidable.not_not.1 fun hne => hchk ⟨hv, hne⟩
  · rw [hdata]
    omega

/-- The frame's length byte is at least the minimum of its command, which is one of R92's. -/
def MeetsMinL (f : FrameParts) : Prop := ∃ m, minL f.cmd = some m ∧ m ≤ 2 + f.data.length

/-- A row of R92 with `n` operand bytes asks for an `L` of at least `2 + n`. -/
theorem meetsMinL_row {f : FrameParts} {w : Byte} {n : Nat} {mk : Bytes → FrameTail → Instr} {y : Except Reject Instr}
    (hmin : minL w = some (2 + n)) (hy : Yields (fun _ => MeetsMinL f) y) :
    Yields (fun _ => MeetsMinL f) (if f.cmd = w then withOperands f n mk else y) := by
  refine .ite_cond (fun hw => .ite_cond (fun _ => .error _) fun hn => .ok ?_) fun _ => hy
  exact ⟨2 + n, hw ▸ hmin, Nat.add_le_add_left (Nat.le_of_not_lt hn) 2⟩

/-- The 15 rows of R92. -/
theorem decodeCommandA_meetsMinL (f : FrameParts) : Yields (fun _ => MeetsMinL f) (decodeCommandA f) := by
  unfold decodeCommandA
  iterate 15 refine meetsMinL_row rfl ?_
  exact .error _

/-- On Family A a payload that holds a command is well-framed, with an `L` that R92 admits for its command number. -/
theorem wellFramed_of_decodeCommand {i : Instr} (hf : c.family = .a) (h : decodeCommand c p = .ok i) :
    WellFramed c p ∧ ∃ m, minL (p.getD 2 0#8) = some m ∧ m ≤ (p.getD 1 0#8).toNat := by
  simp only [decodeCommand, hf] at h
  split at h
  · cases h
  · rename_i f hsplit
    obtain ⟨hframed, hcmd, hl⟩ := wellFramed_of_splitFrame hsplit
    rw [← hcmd, hl]
    exact ⟨hframed, decodeCommandA_meetsMinL f i h⟩

/-- A byte that is none of the Family A command numbers has no row in R92. -/
theorem minL_eq_none {cmd : Byte} (h : cmd ∉ commandsA) : minL cmd = none := by
  simp only [commandsA, List.mem_cons, List.not_mem_nil, or_false, not_or] at h
  simp only [minL, h, or_self, if_false]

/-- A payload that holds no command is ignored (R261, R281, R301). -/
theorem exec_controlTransfer_ignored (h : ∀ i, decodeCommand s.cfg p ≠ .ok i) :
    exec (.controlTransfer p) s = .next { s with result := .noResponse } := by
  cases hdecode : decodeCommand s.cfg p with
  | error e => exact execControlTransfer_of_error hdecode
  | ok i => exact absurd hdecode (h i)

/-- Settles O4: a payload that holds a command is well-framed, its number is in R92 and its `L` is at least that row's. -/
theorem ignoredPayloadsA : Obligations.IgnoredPayloadsA := by
  refine fun p s hf => ⟨fun hbad => exec_controlTransfer_ignored fun i hdecode => ?_,
    fun _ hcmd => exec_controlTransfer_ignored fun i hdecode => ?_⟩
  all_goals obtain ⟨hframed, m, hmin, hle⟩ := wellFramed_of_decodeCommand hf hdecode
  · obtain hnot | ⟨m', hmin', hlt⟩ := hbad
    · exact hnot hframed
    · obtain rfl : m = m' := Option.some.inj (hmin.symm.trans hmin')
      exact Nat.not_lt_of_le hle hlt
  · rw [minL_eq_none hcmd] at hmin
    cases hmin

/-! ## The echo (R263) -/

/-- The echo of `p`: the whole of it, its length and D_A_ECHO. -/
def EchoesA (s : State) (p : Bytes) (o : Out) : Prop := ∀ t, o = .next t → t.result = .triple p p.length s.cfg.dAEcho

theorem commandA_echoes (p : Bytes) (run : State → Except Fault (State × Bytes)) (s : State) :
    EchoesA s p (commandA p run s) := fun _ hnext => by
  obtain ⟨-, s1, reply, -, -, rfl⟩ := commandA_next hnext
  rfl

theorem blankCommand_echoes (cmd seq : Byte) (tl : FrameTail) (s : State) :
    EchoesA s (aFrame cmd seq [] tl) (blankCommand cmd seq tl s) := commandA_echoes _ _ s

/-- A Family B command answers no state on a Family A device (R2). -/
theorem commandB_ne_next (hf : s.cfg.family = .a) (p : Bytes) (run : State → Except Fault (State × Option Bytes)) :
    commandB p run s ≠ .next t := fun hnext => by
  obtain ⟨hb, -⟩ := commandB_next hnext
  rw [hf] at hb
  cases hb

/-- Each of the 15 Family A commands echoes the frame it is encoded in, and nothing else answers a state on Family A. -/
theorem runCommand_echoes (hf : s.cfg.family = .a) (i : Instr) : EchoesA s (encode i).bytes (runCommand i s) := by
  cases i with unfold runCommand
  | aActivate | aSeed | aNextRandom | aPresentFigures | aQueryBlock | aWriteBlock | aFigureId =>
    exact commandA_echoes _ _ s
  | aBlank90 | aBlank91 | aBlank92 | aBlank93 | aBlank94 | aBlank95 | aBlank96 | aBlankB5 =>
    exact blankCommand_echoes _ _ _ s
  | bActivate | bLedC | bLedJ | bLedL | bQueryBlock | bReady | bStatus | bVersion | bWriteBlock =>
    exact fun _ hnext => absurd hnext (commandB_ne_next hf _ _)
  | _ => exact fun _ hnext => by cases hnext

/-- Settles O9: the payload is the encoded form of the command it holds, and that is what the command echoes. -/
theorem familyAEcho : Obligations.FamilyAEcho := by
  intro p s t hf hnext
  rw [exec_controlTransfer] at hnext
  cases hdecode : decodeCommand s.cfg p with
  | error e =>
    rw [execControlTransfer_of_error hdecode] at hnext
    obtain rfl := Host.Outcome.next.inj hnext
    exact .inl rfl
  | ok i =>
    obtain ⟨hcode, -⟩ := decodeCommand_encodes s.cfg p i hdecode
    rw [execControlTransfer_of_ok hdecode] at hnext
    have hecho := runCommand_echoes hf i t hnext
    rw [hcode] at hecho
    exact .inr hecho

end Sys2Proof.Machine
end

section
/-! PROOF. The Family A commands that reach no registry slot (44_family_a.md R265 to R275, R280) and the layouts of the
response and the notification buffer (30_encoding.md R93, R95). -/

namespace Sys2Proof.Machine

variable {c : Params} {s : State}

/-! ## Buffers -/

/-- The response buffer's bytes (R93). -/
theorem aResp_eq {p : Bytes} (h : 4 + p.length ≤ c.reportLen) (seq : Byte) :
    aResp c seq p = [0xAA#8, BitVec.ofNat 8 (1 + p.length), seq] ++ p ++
      [BitVec.ofNat 8 (0xAA + (1 + p.length) + seq.toNat + (p.map BitVec.toNat).sum)] ++
      zeros (c.reportLen - (4 + p.length)) := by
  have hsum : sum8 (0xAA#8 :: BitVec.ofNat 8 (1 + p.length) :: seq :: p) =
      BitVec.ofNat 8 (0xAA + (1 + p.length) + seq.toNat + (p.map BitVec.toNat).sum) := by
    simp only [sum8, sum8_eq_ofNat_sum, BitVec.ofNat_add, BitVec.ofNat_toNat, BitVec.setWidth_eq, BitVec.add_assoc]
  rw [aResp, hsum]
  refine pad_of_length ?_ h
  simp only [List.length_append, List.length_cons, List.length_nil]
  omega

/-- A blank acknowledgement is `AA 01 seq CK` and zeros (R265). -/
theorem blankAck_eq (h : 32 ≤ c.reportLen) (seq : Byte) :
    blankAck c seq = [0xAA#8, 0x01#8, seq, 0xAB#8 + seq] ++ zeros (c.reportLen - 4) := by
  have hchk : BitVec.ofNat 8 (0xAB + seq.toNat) = 0xAB#8 + seq := by
    rw [BitVec.ofNat_add, BitVec.ofNat_toNat, BitVec.setWidth_eq]
  rw [← hchk]
  exact aResp_eq (Nat.le_trans (by decide) h) seq

/-- The notification buffer's bytes (R95). -/
theorem aNotif_eq (h : 32 ≤ c.reportLen) (rc mk ob : Byte) (k : NotifKind) :
    aNotif c rc mk ob k = [0xAB#8, 0x04#8, rc, mk, ob, k.code,
      BitVec.ofNat 8 (0xAF + rc.toNat + mk.toNat + ob.toNat + k.code.toNat)] ++ zeros (c.reportLen - 7) := by
  have hsum : sum8 [0xAB#8, 0x04#8, rc, mk, ob, k.code] =
      BitVec.ofNat 8 (0xAF + rc.toNat + mk.toNat + ob.toNat + k.code.toNat) := by
    rw [sum8_eq_ofNat_sum]
    simp only [List.map_cons, List.map_nil, List.sum_cons, List.sum_nil, BitVec.reduceToNat]
    congr 1
    omega
  rw [aNotif, hsum]
  exact pad_of_length rfl (Nat.le_trans (by decide) h)

/-! ## Blank commands (R265, R269 to R275, R280) -/

theorem blankCommand_eq (hf : s.cfg.family = .a) (hq : CanReply s) (hlen : 32 ≤ s.cfg.reportLen) (cmd seq : Byte)
    (t : FrameTail) :
    blankCommand cmd seq t s = .next (replied s (aFrame cmd seq [] t)
      ([0xAA#8, 0x01#8, seq, 0xAB#8 + seq] ++ zeros (s.cfg.reportLen - 4)) s.cfg.dAEcho) := by
  rw [blankCommand, ← blankAck_eq hlen]
  exact commandA_eq hf rfl hq

/-- Settles O13: the checksum is the byte sum of the bytes before it, and each of the eight commands is `blankCommand` of its
number. -/
theorem replyLayoutsAndBlankCommands : Obligations.ReplyLayoutsAndBlankCommands := by
  refine ⟨fun c seq p h => aResp_eq h seq, fun c rc mk ob h => ⟨aNotif_eq h rc mk ob .added, aNotif_eq h rc mk ob .removed⟩,
    fun _ _ _ _ => rfl, fun seq t s hf hq hlen => ?_⟩
  have hblank (cmd : Byte) := blankCommand_eq hf hq hlen cmd seq t
  exact ⟨hblank 0x90#8, hblank 0x91#8, hblank 0x92#8, hblank 0x93#8, hblank 0x94#8, hblank 0x95#8, hblank 0x96#8,
    hblank 0xB5#8⟩

/-! ## Activate and seed (R266, R267) -/

/-- 0x81 seeds the PRNG with the descrambled operand, and queues a blank acknowledgement. -/
theorem exec_aSeed_eq (hf : s.cfg.family = .a) (hq : CanReply s) (hlen : 32 ≤ s.cfg.reportLen) (seq : Byte) (x : U64)
    (t : FrameTail) :
    exec (.aSeed seq x t) s =
      .next (replied (generateSeedOp (descrambleOp s.cfg x) s) (aFrame 0x81#8 seq (tobe64 x) t)
        ([0xAA#8, 0x01#8, seq, 0xAB#8 + seq] ++ zeros (s.cfg.reportLen - 4)) s.cfg.dAEcho) := by
  rw [exec_aSeed, ← blankAck_eq hlen]
  exact commandA_eq hf rfl hq

/-- Settles O14: the seeded PRNG is the one GenerateSeed warms up. -/
theorem activateAndSeedCommands : Obligations.ActivateAndSeedCommands := fun seq x t s hf hq hlen =>
  ⟨exec_aActivate_eq hf hq hlen seq t, descrambleOp s.cfg x, _, exec_descramble x s,
    warmedUp_prngDiscard s (descrambleOp s.cfg x), exec_aSeed_eq hf hq hlen seq x t⟩

/-! ## The next random word (R268) -/

/-- A command whose operation faults raises that fault (R260, R340). -/
theorem commandA_of_error {p : Bytes} {run : State → Except Fault (State × Bytes)} {e : Fault} (hf : s.cfg.family = .a)
    (hr : run s = .error e) : commandA p run s = .fault e := by
  simp only [commandA, onFamily_eq hf, hr]
  rfl

/-- 0x83 on an unseeded generator (R341). -/
theorem nextRandomReply_of_unseeded (hs : s.prng.seeded = false) (seq : Byte) :
    nextRandomReply seq s = .error .unseededPrng := by
  simp only [nextRandomReply, getNextOp, hs, Bool.false_eq_true, if_false]

/-- A response's payload stands after its three head bytes (R93). -/
theorem slice_aResp {p : Bytes} (h : 4 + p.length ≤ c.reportLen) (seq : Byte) :
    slice (aResp c seq p) 3 p.length = p := by
  rw [aResp_eq h, slice, List.append_assoc, List.append_assoc]
  exact List.take_left

/-- The guest reads back the word that a response's eight payload bytes spell. -/
theorem be64_slice_aResp (h : 32 ≤ c.reportLen) (seq : Byte) (x : U64) :
    be64 (slice (aResp c seq (tobe64 x)) 3 8) = x := by
  have hfits : 4 + (tobe64 x).length ≤ c.reportLen := by
    rw [tobe64_length]
    omega
  have hbytes : slice (aResp c seq (tobe64 x)) 3 8 = tobe64 x := slice_aResp hfits seq
  rw [hbytes, be64_tobe64]

/-- Settles O15: the word is one step of the generator, and Descramble undoes Scramble. -/
theorem nextRandomCommand : Obligations.NextRandomCommand := by
  refine fun seq t s hf => ⟨fun hs hq hlen => ?_, fun hs => ?_⟩
  · refine ⟨(prngStep s.prng).1, (prngStep s.prng).2, scrambleOp s.cfg (prngStep s.prng).2 s.garbage,
      exec_getNext_of_seeded hs, exec_scramble _ _ s, ?_, be64_slice_aResp hlen seq _, fun hpop => ?_⟩
    · rw [exec_aNextRandom]
      exact commandA_eq hf (nextRandomReply_of_seeded hs seq) hq
    · rw [exec_descramble, descrambleOp_scrambleOp hpop]
      rfl
  · rw [exec_aNextRandom]
    exact commandA_of_error hf (nextRandomReply_of_unseeded hs seq)

end Sys2Proof.Machine
end

section
/-! PROOF. The Family A poll (44_family_a.md R282, R283; 43_transfer.md R239): one equation for each of its three sources. -/

namespace Sys2Proof.Machine

variable {s : State}

/-! ## What the requests run -/

theorem exec_interruptPoll_of_family_a (hf : s.cfg.family = .a) (p : Bytes) :
    exec (.interruptPoll p) s = .next (pollOpA s) := by
  rw [exec_interruptPoll, execInterruptPoll, hf]

theorem exec_aPoll (hf : s.cfg.family = .a) (p : Bytes) : exec (.aPoll p) s = .next (pollOpA s) := onFamily_eq hf _

/-- A_IDLE_POLL runs where both queues are empty (R283, log 4). -/
theorem exec_aIdlePoll (hf : s.cfg.family = .a) (htq : s.tq = []) (hnotif : s.notif = []) (p : Bytes) :
    exec (.aIdlePoll p) s = .next (idlePollOp s) := by
  change execAIdlePoll p s = _
  rw [execAIdlePoll, onFamily_eq hf, htq, hnotif]
  rfl

/-! ## The three sources -/

theorem pollOpA_of_tq {e : Bytes} {rest : List Bytes} (htq : s.tq = e :: rest) :
    pollOpA s = { s with tq := rest, result := .triple e e.length s.cfg.dAReply } := by
  simp only [pollOpA, htq]
  rfl

theorem pollOpA_of_notif {e : Bytes} {rest : List Bytes} (htq : s.tq = []) (hnotif : s.notif = e :: rest) :
    pollOpA s = { s with notif := rest, result := .triple e e.length s.cfg.dAReply } := by
  simp only [pollOpA, htq, hnotif]
  rfl

theorem pollOpA_of_idle (htq : s.tq = []) (hnotif : s.notif = []) : pollOpA s = idlePollOp s := by
  simp only [pollOpA, htq, hnotif]

/-- The idle frame fills the buffer with zeros, and its count is REPORT_LEN (R283). -/
theorem idlePollOp_eq (h : 32 ≤ s.cfg.reportLen) :
    idlePollOp s = { s with
      result := .triple (s.cfg.aIdleFrame.toList ++ zeros (s.cfg.reportLen - 32)) s.cfg.reportLen s.cfg.dAIdle } := by
  have hframe : s.cfg.aIdleFrame.toList.length = 32 := Vector.length_toList
  rw [idlePollOp, State.respond, pad_length, pad_of_length hframe h]
  rfl

/-- Settles O30: the port's poll and A_POLL are the one operation `pollOpA`, and with both queues empty so is
A_IDLE_POLL. -/
theorem pollFamilyA : Obligations.PollFamilyA := by
  intro p s hf
  rw [exec_interruptPoll_of_family_a hf, exec_aPoll hf]
  refine ⟨fun e rest htq => ?_, fun e rest htq hnotif => ?_, fun htq hnotif hlen => ?_⟩
  · rw [pollOpA_of_tq htq]
    exact ⟨rfl, rfl⟩
  · rw [pollOpA_of_notif htq hnotif]
    exact ⟨rfl, rfl⟩
  · rw [exec_aIdlePoll hf htq hnotif, pollOpA_of_idle htq hnotif, idlePollOp_eq hlen]
    exact ⟨rfl, rfl, rfl⟩

end Sys2Proof.Machine
end

section
/-! PROOF. Family B control payloads that hold no command (45_family_b.md R301), and the commands that reach no slot buffer
(R302 to R306, R308 to R310). -/

namespace Sys2Proof.Machine

variable {s s1 : State} {p : Bytes}

/-! ## Payloads that hold a command (R300, R301) -/

/-- A payload of Family B that holds a command is not empty, and its length is LEN_B of its first byte (R97). -/
theorem lenB_of_decodeCommandB {c : Params} {i : Instr} (h : decodeCommandB c p = .ok i) :
    p ≠ [] ∧ lenB c (p.getD 0 0#8) = some p.length := by
  cases p with
  | nil => cases h
  | cons ch d =>
    cases hlen : lenB c ch with
    | none =>
      simp only [decodeCommandB, hlen] at h
      cases h
    | some n =>
      by_cases hn : d.length + 1 = n
      · exact ⟨List.cons_ne_nil ch d, hlen.trans (congrArg some hn.symm)⟩
      · simp only [decodeCommandB, hlen, if_neg hn] at h
        cases h

/-- Settles O5: a payload that holds a command has a first byte, a length for it in LEN_B, and that length. -/
theorem ignoredPayloadsB : Obligations.IgnoredPayloadsB := by
  refine fun p s hf hbad => exec_controlTransfer_ignored fun i hdecode => ?_
  simp only [decodeCommand, hf] at hdecode
  obtain ⟨hne, hlen⟩ := lenB_of_decodeCommandB hdecode
  obtain hnil | hnone | ⟨n, hn, hwrong⟩ := hbad
  · exact hne hnil
  · rw [hnone] at hlen
    cases hlen
  · exact hwrong (Option.some.inj (hlen.symm.trans hn))

/-! ## Commands with a fixed reply -/

/-- A Family B command whose reply begins with `k` fixed bytes queues them with zeros to REPORT_LEN (R99, R300). -/
theorem commandB_eq_padded {run : State → Except Fault (State × Option Bytes)} {head : Bytes} {k : Nat}
    (hf : s.cfg.family = .b) (hrun : run s = .ok (s1, some (bResp s.cfg head))) (hq : CanReply s1)
    (hhead : head.length = k) (hk : k ≤ s.cfg.reportLen) :
    commandB p run s = .next (replied s1 p (head ++ zeros (s.cfg.reportLen - k)) s.cfg.dBCtrl) := by
  rw [commandB_eq_some hf hrun hq, bResp, pad_of_length hhead hk]

/-- Settles O25: 'A' runs Activate or Deactivate by its argument, and `collapseSlot` is R187's change of one slot. -/
theorem activateCommandB : Obligations.ActivateCommandB := by
  intro arg ex s hf hq hlen reply
  have hroom : 4 ≤ s.cfg.reportLen := by omega
  refine ⟨fun harg => ?_, fun harg => ?_⟩
  · rw [exec_bActivate]
    exact commandB_eq_padded hf (by rw [if_pos harg]; rfl) hq rfl hroom
  · have hrun : (if arg ≠ 0#8 then activateOp s else deactivateOp s) =
        { s with activated := false, slots := s.slots.map collapseSlot } := by
      rw [if_neg (not_not_intro harg), deactivateOp_of_family_b hf]
    rw [exec_bActivate]
    exact commandB_eq_padded hf (by rw [hrun]; rfl) hq rfl hroom

theorem exec_bStatus (ex : Bytes) (s : State) :
    exec (.bStatus ex) s = commandB (0x53#8 :: ex) (fun s => .ok (s, none)) s := rfl

/-- Settles O27: the operation of each of the three commands leaves the state as it was. -/
theorem readyStatusVersion : Obligations.ReadyStatusVersion := by
  refine fun x b1 b2 b3 ex s hf => ⟨?_, fun hq hlen => ⟨?_, ?_⟩⟩
  · rw [exec_bStatus]
    exact commandB_eq_none hf rfl
  · rw [exec_bReady]
    exact commandB_eq_padded hf rfl hq rfl (by omega)
  · rw [exec_bVersion]
    exact commandB_eq_padded hf rfl hq rfl (by omega)

/-! ## LED zones (R303) -/

/-- Two zones share a key only where they are the same zone (10_state.md R35, log 23). -/
theorem zoneKey_inj {ch sel ch' sel' : Byte} : zoneKey ch' sel' = zoneKey ch sel ↔ ch' = ch ∧ sel' = sel := by
  have hsel := sel.isLt
  have hsel' := sel'.isLt
  rw [zoneKey, zoneKey, BitVec.toNat_eq, BitVec.toNat_eq]
  omega

theorem exec_bLedC (r g b : Byte) (ex : Bytes) (s : State) :
    exec (.bLedC r g b ex) s = commandB (0x43#8 :: r :: g :: b :: ex)
      (fun s => .ok (setLed s 0x43#8 0x00#8 [r, g, b], none)) s := rfl

theorem exec_bLedL (zone r g b : Byte) (ex : Bytes) (s : State) :
    exec (.bLedL zone r g b ex) s = commandB (0x4C#8 :: zone :: r :: g :: b :: ex)
      (fun s => .ok (setLed s 0x4C#8 zone [r, g, b], none)) s := rfl

/-- Settles O26: each command is one `setLed`, and a zone's key is its own. -/
theorem ledCommands : Obligations.LedCommands := by
  refine fun zone r g b v ex s hf => ⟨?_, ?_, fun hq hlen => ?_, fun ch sel ch' sel' => ?_⟩
  · rw [exec_bLedC]
    exact commandB_eq_none hf rfl
  · rw [exec_bLedL]
    exact commandB_eq_none hf rfl
  · rw [exec_bLedJ]
    exact commandB_eq_padded (head := [0x4A#8]) hf rfl hq rfl (by omega)
  · simp only [assocGet_put, zoneKey_inj]

end Sys2Proof.Machine
end

section
/-! PROOF. The Family B poll (45_family_b.md R320 to R325; 43_transfer.md R239): the packed status word bit by bit, then one
equation for each of the poll's three answers. -/

namespace Sys2Proof.Machine

variable {s : State} {p : Bytes}

/-! ## The status word (R325) -/

/-- Slots numbered from `i + 1` on pack as from `i` on, two bits higher. -/
theorem packWord_succ (c : Params) (i : Nat) (slots : List Slot) :
    packWord c (i + 1) slots = packWord c i slots <<< 2 := by
  induction slots generalizing i with
  | nil => rfl
  | cons x rest ih => rw [packWord, packWord, ih, BitVec.shiftLeft_add_distrib, Nat.mul_succ, BitVec.shiftLeft_add]

/-- The first slot's code and the word of the others share no bit, so their sum is their union. -/
theorem packWord_cons (c : Params) (x : Slot) (rest : List Slot) :
    packWord c 0 (x :: rest) = (x.status.code c).setWidth 32 ||| packWord c 0 rest <<< 2 := by
  have hdisjoint : (x.status.code c).setWidth 32 &&& packWord c 0 rest <<< 2 = 0#32 := by
    refine BitVec.eq_of_getLsbD_eq fun j hj => ?_
    by_cases hlow : j < 2
    · simp [hlow]
    · simp [BitVec.getLsbD_of_ge (x.status.code c) j (Nat.le_of_not_lt hlow)]
  rw [← BitVec.add_eq_or_of_and_eq_zero _ _ hdisjoint, packWord, packWord_succ]
  simp

/-- Bit `j` of the word is bit `j mod 2` of the code of slot `j / 2`, or 0 where there is no such slot. -/
theorem packWord_getLsbD (c : Params) (slots : List Slot) {j : Nat} (hj : j < 32) :
    (packWord c 0 slots).getLsbD j =
      (decide (j / 2 < slots.length) && ((slots.getD (j / 2) Slot.empty).status.code c).getLsbD (j % 2)) := by
  induction slots generalizing j with
  | nil => simp [packWord]
  | cons x rest ih =>
    rw [packWord_cons, BitVec.getLsbD_or, BitVec.getLsbD_setWidth, BitVec.getLsbD_shiftLeft]
    by_cases hlow : j < 2
    · simp [hj, hlow, Nat.div_eq_of_lt hlow, Nat.mod_eq_of_lt hlow]
    · obtain ⟨k, rfl⟩ := Nat.exists_eq_add_of_le' (Nat.le_of_not_lt hlow)
      rw [BitVec.getLsbD_of_ge (x.status.code c) _ (Nat.le_of_not_lt hlow), Nat.add_sub_cancel, ih (by omega)]
      simp [hj, Nat.add_div_right]

/-- The four bytes of the word, by STATUS_WORD_ORDER. -/
theorem packStatus_eq (c : Params) (slots : List Slot) :
    packStatus c slots =
      let w := packWord c 0 slots
      match c.statusWordOrder with
      | .bigEndian => [w.extractLsb' 24 8, w.extractLsb' 16 8, w.extractLsb' 8 8, w.extractLsb' 0 8]
      | .littleEndian => [w.extractLsb' 0 8, w.extractLsb' 8 8, w.extractLsb' 16 8, w.extractLsb' 24 8] := by
  have hlittle (w : U32) : tole32 w = (tobe32 w).reverse := rfl
  cases horder : c.statusWordOrder with
  | bigEndian => simp only [packStatus, horder, tobe32_eq]
  | littleEndian =>
    simp only [packStatus, horder, hlittle, tobe32_eq]
    rfl

@[simp] theorem packStatus_length (c : Params) (slots : List Slot) : (packStatus c slots).length = 4 := by
  rw [packStatus_eq]
  cases c.statusWordOrder <;> rfl

/-- Settles O34: `packWord_getLsbD` read at the two bits of a slot and above the last slot. -/
theorem statusPacking : Obligations.StatusPacking := by
  refine fun c slots hcount => ⟨fun i hi => BitVec.eq_of_getLsbD_eq fun k hk => ?_, fun j hj => ?_, packStatus_eq c slots⟩
  · have hslot : (2 * i + k) / 2 = i := by omega
    have hbit : (2 * i + k) % 2 = k := by omega
    rw [BitVec.getLsbD_extractLsb', packWord_getLsbD c slots (by omega), hslot, hbit]
    simp [hk, hi]
  · by_cases hword : j < 32
    · have habove : ¬ j / 2 < slots.length := by omega
      rw [packWord_getLsbD c slots hword, decide_eq_false habove, Bool.false_and]
    · exact BitVec.getLsbD_of_ge _ j (Nat.le_of_not_lt hword)

/-! ## What the requests run -/

theorem exec_interruptPoll_of_family_b (hf : s.cfg.family = .b) (p : Bytes) :
    exec (.interruptPoll p) s = .next (pollOpB p s) := by
  rw [exec_interruptPoll, execInterruptPoll, hf]

theorem exec_bPoll (hf : s.cfg.family = .b) (p : Bytes) : exec (.bPoll p) s = .next (pollOpB p s) := onFamily_eq hf _

/-- A poll handler whose condition holds runs (log 4). -/
theorem onFamily_whenSelected {f : Family} {cond : Bool} (hf : s.cfg.family = f) (hcond : cond = true) (t : State) :
    onFamily f s (whenSelected cond t) = .next t := (onFamily_eq hf _).trans (if_pos hcond)

theorem exec_bAudioEcho (hf : s.cfg.family = .b) (hp : 32 < p.length) :
    exec (.bAudioEcho p) s = .next (s.respond p s.cfg.dBAudio) := onFamily_whenSelected hf (decide_eq_true hp) _

theorem exec_bQueuedReply (hf : s.cfg.family = .b) (hp : p.length ≤ 32) (htq : s.tq ≠ []) :
    exec (.bQueuedReply p) s = .next (pollOpB p s) := onFamily_whenSelected hf (by simp [hp, htq]) _

theorem exec_bStatusFrame (hf : s.cfg.family = .b) (hp : p.length ≤ 32) (htq : s.tq = []) :
    exec (.bStatusFrame p) s = .next (statusPollOp s) := onFamily_whenSelected hf (by simp [hp, htq]) _

/-! ## The three answers (R320) -/

theorem pollOpB_of_long (hp : 32 < p.length) (s : State) : pollOpB p s = s.respond p s.cfg.dBAudio := if_pos hp

theorem pollOpB_of_tq {e : Bytes} {rest : List Bytes} (hp : p.length ≤ 32) (htq : s.tq = e :: rest) :
    pollOpB p s = State.respond { s with tq := rest } e s.cfg.dBQueued := by
  simp only [pollOpB, Nat.not_lt.2 hp, if_false, htq]

theorem pollOpB_of_idle (hp : p.length ≤ 32) (htq : s.tq = []) : pollOpB p s = statusPollOp s := by
  simp only [pollOpB, Nat.not_lt.2 hp, if_false, htq]

/-- Settles O31: B_POLL and the port's poll are the one operation `pollOpB`, and each handler is its answer where the
handler's condition holds. -/
theorem pollFamilyB : Obligations.PollFamilyB := by
  intro p s hf
  rw [exec_interruptPoll_of_family_b hf, exec_bPoll hf]
  refine ⟨rfl, fun hp => ?_, fun hp htq => ?_, fun hp htq => ?_, _, rfl⟩
  · rw [exec_bAudioEcho hf hp, pollOpB_of_long hp]
  · rw [exec_bQueuedReply hf hp htq]
  · rw [exec_bStatusFrame hf hp htq, pollOpB_of_idle hp htq]

/-- The two polls end as the handler they choose does (R239, R320). -/
theorem forall_polls_of_handler {i : Instr} {o : Out} (hf : s.cfg.family = .b)
    (hchosen : exec (.interruptPoll p) s = exec i s) (ho : exec i s = o) :
    ∀ j ∈ [Instr.interruptPoll p, .bPoll p, i], exec j s = o := by
  obtain ⟨hpoll, -⟩ := pollFamilyB p s hf
  have hport := hchosen.trans ho
  exact List.forall_mem_cons.2 ⟨hport, List.forall_mem_cons.2 ⟨hpoll.trans hport, List.forall_mem_singleton.2 ho⟩⟩

/-- Settles O32: both polls end as the handler of the row, which answers the payload or pops the oldest entry. -/
theorem audioEchoAndQueuedReply : Obligations.AudioEchoAndQueuedReply := by
  intro p s hf
  obtain ⟨-, hecho, hqueued, -⟩ := pollFamilyB p s hf
  refine ⟨fun hp => ?_, fun e rest hp htq hlen => ?_⟩
  · exact forall_polls_of_handler hf (hecho hp) (exec_bAudioEcho hf hp)
  · have hne : s.tq ≠ [] := by simp [htq]
    have hpop : pollOpB p s = { s with tq := rest, result := .triple e s.cfg.reportLen s.cfg.dBQueued } := by
      rw [pollOpB_of_tq hp htq, State.respond, hlen]
      rfl
    exact forall_polls_of_handler hf (hqueued hp hne) (by rw [exec_bQueuedReply hf hp hne, hpop])

/-! ## The status frame (R322, R323) -/

theorem advanceSlot_advanced (x : Slot) : Advanced x (advanceSlot x) := by
  unfold advanceSlot
  split
  · exact .inl ⟨‹_›, rfl⟩
  · exact .inr ⟨_, _, ‹_›, rfl⟩

/-- The slot of a number after every slot moved forward is that slot moved forward, in range or not. -/
theorem getD_map_advanceSlot (s : State) (i : Nat) :
    (s.slots.map advanceSlot).getD i Slot.empty = advanceSlot (s.slotAt i) := by
  rw [State.slotAt, List.getD_eq_getElem?_getD, List.getD_eq_getElem?_getD, List.getElem?_map]
  cases s.slots[i]? with
  | none => rfl
  | some x => rfl

/-- The seven bytes of R100 and zeros to REPORT_LEN. -/
theorem statusFrame_eq {c : Params} (h : 32 ≤ c.reportLen) (slots : List Slot) (counter : Byte) (activated : Bool) :
    statusFrame c slots counter activated =
      0x53#8 :: packStatus c slots ++ [counter, if activated then 0x01#8 else 0x00#8] ++ zeros (c.reportLen - 7) :=
  pad_of_length (by simp) (by omega)

/-- The synthesized frame shows the slots after the step and the counter before it, and its count is REPORT_LEN. -/
theorem statusPollOp_eq (h : 32 ≤ s.cfg.reportLen) :
    statusPollOp s = { s with
      slots := s.slots.map advanceSlot
      counter := s.counter + 1#8
      result := .triple
        (0x53#8 :: packStatus s.cfg (s.slots.map advanceSlot) ++ [s.counter, if s.activated then 0x01#8 else 0x00#8] ++
          zeros (s.cfg.reportLen - 7))
        s.cfg.reportLen s.cfg.dBStatus } := by
  have hlen : (statusFrame s.cfg (s.slots.map advanceSlot) s.counter s.activated).length = s.cfg.reportLen :=
    bResp_length _ _
  rw [statusPollOp, State.respond, hlen, statusFrame_eq h]
  rfl

/-- Settles O33: the slots of the next state are the slots moved forward one step. -/
theorem statusFrame_shows_advanced_slots : Obligations.StatusFrame := by
  intro p s hf hp htq hlen
  refine ⟨s.slots.map advanceSlot, List.length_map _, fun i _ => ?_, ?_⟩
  · rw [getD_map_advanceSlot]
    exact advanceSlot_advanced _
  · rw [exec_bStatusFrame hf hp htq, statusPollOp_eq hlen]

end Sys2Proof.Machine
end

section
/-! PROOF. The order of checks of the registry's block and identifier forms (60_exceptions.md R350, R342, R343; 42_registry.md
R183, R184, R189 to R195): one lemma per form says that it faults exactly where its slot, or else its block, is out of
range. -/

namespace Sys2Proof.Machine

variable {s : State} {f : Fault} {sel sb slot blk : Byte} {v : Bytes}

/-! ## Slots and blocks out of range -/

theorem offA_error_iff {c : Params} {n : Byte} :
    offA c n = .error f ↔ (5 ≤ n.toNat ∨ c.bufLenA < blockOffsetA n + 16) ∧ f = .blockOutOfRange n.toNat := by
  by_cases hbad : 5 ≤ n.toNat ∨ c.bufLenA < blockOffsetA n + 16
  · have hoff : offA c n = .error (.blockOutOfRange n.toNat) := hbad.elim offA_of_ge offA_of_short
    simp [hoff, hbad, eq_comm]
  · have hoff : offA c n = .ok (blockOffsetA n) := offA_of_le (by omega) (by omega)
    simp [hoff, hbad]

theorem offB_error_iff {c : Params} {n : Byte} :
    offB c n = .error f ↔ (64 ≤ n.toNat ∨ c.bufLenB < 16 * n.toNat + 16) ∧ f = .blockOutOfRange n.toNat := by
  by_cases hbad : 64 ≤ n.toNat ∨ c.bufLenB < 16 * n.toNat + 16
  · have hoff : offB c n = .error (.blockOutOfRange n.toNat) := hbad.elim offB_of_ge offB_of_short
    simp [hoff, hbad, eq_comm]
  · have hoff : offB c n = .ok (16 * n.toNat) := offB_of_lt (by omega) (by omega)
    simp [hoff, hbad]

/-- A selector is out of range only where it is a slot index (R195). -/
theorem resolveA_error_iff :
    resolveA s sel = .error f ↔
      s.cfg.aSelector = .slotIndex ∧ s.cfg.nSlotsA ≤ sel.toNat ∧ f = .slotOutOfRange sel.toNat := by
  cases hsel : s.cfg.aSelector with
  | slotIndex =>
    by_cases h : sel.toNat < s.cfg.nSlotsA
    · simp [resolveA_of_slotIndex hsel, h]
    · simp [resolveA_of_slotIndex hsel, h, Nat.le_of_not_lt h, eq_comm]
  | orderAdded => simp [resolveA_of_orderAdded hsel]

theorem slotB_error_iff {i : Nat} : slotB s i = .error f ↔ s.cfg.nSlotsB ≤ i ∧ f = .slotOutOfRange i := by
  by_cases hi : s.cfg.nSlotsB ≤ i
  · simp [slotB_of_le hi, hi, eq_comm]
  · simp [slotB_of_lt (Nat.lt_of_not_le hi), hi]

/-! ## The slot, then the block -/

/-- The fault of a Family A block form: that of its selector, or, where the selector resolves, that of its block (R350). -/
def AddressFaultA (s : State) (sel blk : Byte) (f : Fault) : Prop :=
  resolveA s sel = .error f ∨ (∃ slot, resolveA s sel = .ok slot) ∧ offA s.cfg blk = .error f

/-- The fault of a Family B block form: that of its slot number, or, where the number names a slot, that of its block
(R350). -/
def AddressFaultB (s : State) (i : Nat) (blk : Byte) (f : Fault) : Prop :=
  slotB s i = .error f ∨ slotB s i = .ok i ∧ offB s.cfg blk = .error f

theorem addressFaultA_slot (hsel : s.cfg.aSelector = .slotIndex) (h : s.cfg.nSlotsA ≤ sel.toNat) (blk : Byte) :
    AddressFaultA s sel blk (.slotOutOfRange sel.toNat) := .inl (resolveA_error_iff.2 ⟨hsel, h, rfl⟩)

theorem addressFaultA_block (hsel : s.cfg.aSelector = .slotIndex → sel.toNat < s.cfg.nSlotsA) (h : 5 ≤ blk.toNat) :
    AddressFaultA s sel blk (.blockOutOfRange blk.toNat) := .inr ⟨exists_resolveA hsel, offA_of_ge h⟩

theorem addressFaultB_slot {i : Nat} (h : s.cfg.nSlotsB ≤ i) (blk : Byte) :
    AddressFaultB s i blk (.slotOutOfRange i) := .inl (slotB_of_le h)

theorem addressFaultB_block {i : Nat} (hi : i < s.cfg.nSlotsB) (h : 64 ≤ blk.toNat) :
    AddressFaultB s i blk (.blockOutOfRange blk.toNat) := .inr ⟨slotB_of_lt hi, offB_of_ge h⟩

/-! ## The operations -/

theorem queryBlockOpA_error_iff {i : Option Nat} {seq : Byte} :
    queryBlockOpA s i blk seq = .error f ↔ offA s.cfg blk = .error f := by
  cases hoff : offA s.cfg blk with
  | error g => simp [queryBlockOpA, hoff]
  | ok off => simp [queryBlockOpA_eq hoff]

theorem writeBlockOpA_error_iff {i : Option Nat} {seq : Byte} :
    writeBlockOpA s i blk v seq = .error f ↔ offA s.cfg blk = .error f := by
  cases hoff : offA s.cfg blk with
  | error g => simp [writeBlockOpA, hoff]
  | ok off => cases i with
    | none => simp [writeBlockOpA_none hoff]
    | some i => simp [writeBlockOpA_some hoff]

theorem queryBlockOpB_error_iff {i : Nat} : queryBlockOpB s i blk = .error f ↔ offB s.cfg blk = .error f := by
  cases hoff : offB s.cfg blk with
  | error g => simp [queryBlockOpB, hoff]
  | ok off => simp [queryBlockOpB_eq hoff]

theorem writeBlockOpB_error_iff {i : Nat} : writeBlockOpB s i blk v = .error f ↔ offB s.cfg blk = .error f := by
  cases hoff : offB s.cfg blk with
  | error g => simp [writeBlockOpB, hoff]
  | ok off => simp [writeBlockOpB_eq hoff]

theorem queryBlockBySelector_error_iff {seq : Byte} :
    queryBlockBySelector s sel blk seq = .error f ↔ AddressFaultA s sel blk f := by
  cases hslot : resolveA s sel with
  | error g => simp [queryBlockBySelector, AddressFaultA, hslot]
  | ok i => simp [queryBlockBySelector, AddressFaultA, hslot, queryBlockOpA_error_iff]

theorem writeBlockBySelector_error_iff {seq : Byte} :
    writeBlockBySelector s sel blk v seq = .error f ↔ AddressFaultA s sel blk f := by
  cases hslot : resolveA s sel with
  | error g => simp [writeBlockBySelector, AddressFaultA, hslot]
  | ok i => simp [writeBlockBySelector, AddressFaultA, hslot, writeBlockOpA_error_iff]

theorem figureIdentifierBySelector_error_iff {seq : Byte} :
    figureIdentifierBySelector s sel seq = .error f ↔ resolveA s sel = .error f := by
  cases hslot : resolveA s sel with
  | error g => simp [figureIdentifierBySelector, hslot]
  | ok i => simp [figureIdentifierBySelector, hslot]

theorem queryBlockBySlotByte_error_iff :
    queryBlockBySlotByte s sb blk = .error f ↔ AddressFaultB s (sb.toNat % 16) blk f := by
  cases hslot : slotB s (sb.toNat % 16) with
  | error g => simp [queryBlockBySlotByte, resolveB_eq, AddressFaultB, hslot]
  | ok i =>
    obtain ⟨rfl, -⟩ := slotB_ok hslot
    simp only [queryBlockBySlotByte, resolveB_eq, AddressFaultB, hslot, reduceCtorEq, true_and, false_or]
    rw [← queryBlockOpB_error_iff (i := sb.toNat % 16)]
    cases queryBlockOpB s (sb.toNat % 16) blk <;> simp

theorem writeBlockBySlotByte_error_iff :
    writeBlockBySlotByte s sb blk v = .error f ↔ AddressFaultB s (sb.toNat % 16) blk f := by
  cases hslot : slotB s (sb.toNat % 16) with
  | error g => simp [writeBlockBySlotByte, resolveB_eq, AddressFaultB, hslot]
  | ok i =>
    obtain ⟨rfl, -⟩ := slotB_ok hslot
    simp only [writeBlockBySlotByte, resolveB_eq, AddressFaultB, hslot, reduceCtorEq, true_and, false_or]
    rw [← writeBlockOpB_error_iff (i := sb.toNat % 16) (v := v)]
    cases writeBlockOpB s (sb.toNat % 16) blk v <;> simp

/-! ## Commands and unit calls -/

/-- A Family B command whose operation faults, faults, whatever the queue holds (R300). -/
theorem commandB_of_error {p : Bytes} {run : State → Except Fault (State × Option Bytes)} (hf : s.cfg.family = .b)
    (h : run s = .error f) : commandB p run s = .fault f := by
  simp only [commandB, onFamily_eq hf, h]
  rfl

theorem readOnly_error_iff {e : Except Fault Bytes} : readOnly s e = .error f ↔ e = .error f := by
  cases e <;> simp [readOnly]

theorem returnBytes_fault_iff {e : Except Fault Bytes} : returnBytes s e = .fault f ↔ e = .error f := by
  cases e <;> simp [returnBytes, raise]

theorem returnWith_fault_iff {e : Except Fault (State × Bytes)} : returnWith e = .fault f ↔ e = .error f := by
  cases e <;> simp [returnWith, raise]

theorem exec_queryBlockA (sel blk seq : Byte) (s : State) :
    exec (.queryBlockA sel blk seq) s = onFamily .a s (returnBytes s (queryBlockBySelector s sel blk seq)) := rfl

theorem exec_writeBlockA (sel blk : Byte) (v : Bytes) (seq : Byte) (s : State) :
    exec (.writeBlockA sel blk v seq) s = onFamily .a s (returnWith (writeBlockBySelector s sel blk v seq)) := rfl

theorem exec_getFigureIdentifier (sel seq : Byte) (s : State) :
    exec (.getFigureIdentifier sel seq) s = onFamily .a s (returnBytes s (figureIdentifierBySelector s sel seq)) := rfl

/-- QueryBlock_B faults as its slot number and its block say (R190, R350). -/
theorem exec_queryBlockB_fault_iff (hf : s.cfg.family = .b) :
    exec (.queryBlockB slot blk) s = .fault f ↔ AddressFaultB s slot.toNat blk f := by
  rw [exec, execQueryBlockB, onFamily_eq hf, AddressFaultB]
  cases hslot : slotB s slot.toNat with
  | error g => simp [raise]
  | ok i =>
    obtain ⟨rfl, -⟩ := slotB_ok hslot
    simp [returnBytes_fault_iff, queryBlockOpB_error_iff]

/-- WriteBlock_B faults as its slot number and its block say (R193, R350). -/
theorem exec_writeBlockB_fault_iff (hf : s.cfg.family = .b) :
    exec (.writeBlockB slot blk v) s = .fault f ↔ AddressFaultB s slot.toNat blk f := by
  rw [exec, execWriteBlockB, onFamily_eq hf, AddressFaultB]
  cases hslot : slotB s slot.toNat with
  | error g => simp [raise]
  | ok i =>
    obtain ⟨rfl, -⟩ := slotB_ok hslot
    simp [returnWith_fault_iff, writeBlockOpB_error_iff]

/-- The four block forms of Family A fault together (R277, R278, R189, R191). -/
theorem blockFormsA_of_addressFault (hf : s.cfg.family = .a) (h : AddressFaultA s sel blk f) (seq : Byte) (v : Bytes)
    (t : FrameTail) :
    exec (.aQueryBlock seq sel blk t) s = .fault f ∧ exec (.aWriteBlock seq sel blk v t) s = .fault f ∧
      exec (.queryBlockA sel blk seq) s = .fault f ∧ exec (.writeBlockA sel blk v seq) s = .fault f := by
  have hquery := (queryBlockBySelector_error_iff (seq := seq)).2 h
  have hwrite := (writeBlockBySelector_error_iff (v := v) (seq := seq)).2 h
  rw [exec_aQueryBlock, exec_aWriteBlock, exec_queryBlockA, exec_writeBlockA, onFamily_eq hf, onFamily_eq hf]
  exact ⟨commandA_of_error hf (readOnly_error_iff.2 hquery), commandA_of_error hf hwrite,
    returnBytes_fault_iff.2 hquery, returnWith_fault_iff.2 hwrite⟩

/-- Both identifier forms of Family A fault with their selector (R279, R194). -/
theorem identifierForms_of_error (hf : s.cfg.family = .a) (h : resolveA s sel = .error f) (seq : Byte) (t : FrameTail) :
    exec (.aFigureId seq sel t) s = .fault f ∧ exec (.getFigureIdentifier sel seq) s = .fault f := by
  have hread := (figureIdentifierBySelector_error_iff (seq := seq)).2 h
  rw [exec_aFigureId, exec_getFigureIdentifier, onFamily_eq hf]
  exact ⟨commandA_of_error hf (readOnly_error_iff.2 hread), returnBytes_fault_iff.2 hread⟩

/-- 'Q' and 'W' fault together (R307, R311). -/
theorem blockCommandsB_of_addressFault (hf : s.cfg.family = .b) (h : AddressFaultB s (sb.toNat % 16) blk f) (v ex : Bytes) :
    exec (.bQueryBlock sb blk ex) s = .fault f ∧ exec (.bWriteBlock sb blk v ex) s = .fault f := by
  rw [exec_bQueryBlock, exec_bWriteBlock]
  exact ⟨commandB_of_error hf (queryBlockBySlotByte_error_iff.2 h),
    commandB_of_error hf (writeBlockBySlotByte_error_iff.2 h)⟩

/-- Both block unit calls of Family B fault together (R190, R193). -/
theorem blockCallsB_of_addressFault (hf : s.cfg.family = .b) (h : AddressFaultB s slot.toNat blk f) (v : Bytes) :
    exec (.queryBlockB slot blk) s = .fault f ∧ exec (.writeBlockB slot blk v) s = .fault f :=
  ⟨(exec_queryBlockB_fault_iff hf).2 h, (exec_writeBlockB_fault_iff hf).2 h⟩

/-- Settles O22: each form faults with its slot, or, where that resolves, with its block. -/
theorem slotCheckedBeforeBlock : Obligations.SlotCheckedBeforeBlock := by
  intro seq sel blk v ex t s
  refine ⟨fun hf hsel hslot => ?_, fun hf hslot hblk => ?_, fun hf hslot => ?_, fun hf hslot hblk => ?_,
    fun hf hslot => ?_, fun hf hslot hblk => ?_⟩
  · obtain ⟨hquery, hwrite, hqueryCall, hwriteCall⟩ :=
      blockFormsA_of_addressFault hf (addressFaultA_slot hsel hslot blk) seq v t
    obtain ⟨hid, hidCall⟩ := identifierForms_of_error hf (resolveA_error_iff.2 ⟨hsel, hslot, rfl⟩) seq t
    exact ⟨hquery, hwrite, hid, hqueryCall, hwriteCall, hidCall⟩
  · exact blockFormsA_of_addressFault hf (addressFaultA_block hslot hblk) seq v t
  · exact blockCommandsB_of_addressFault hf (addressFaultB_slot hslot blk) v ex
  · exact blockCommandsB_of_addressFault hf (addressFaultB_block hslot hblk) v ex
  · exact blockCallsB_of_addressFault hf (addressFaultB_slot hslot blk) v
  · exact blockCallsB_of_addressFault hf (addressFaultB_block hslot hblk) v

end Sys2Proof.Machine
end

section
/-! PROOF. Protection by port (60_exceptions.md R353): what a request of the host transfer port leaves of the slots and of
the order counter. The 24 commands a control transfer can run leave the slots alone but for four: the two block writes, which
change a buffer, and the two forms of 'A', which collapse status queues. -/

namespace Sys2Proof.Machine

variable {s t : State} {i : Instr}

/-! ## What is kept -/

/-- Figures stay in their slots as they were, with their data where `whole` holds (R353). -/
structure KeepsFigures (whole : Prop) (s t : State) : Prop where
  figures : figures t = figures s
  orderCounter : t.orderCounter = s.orderCounter
  data : whole → t.slots.map Slot.data = s.slots.map Slot.data

section
variable {whole : Prop}

theorem KeepsFigures.of_slots (hslots : t.slots = s.slots) (horder : t.orderCounter = s.orderCounter) :
    KeepsFigures whole s t :=
  ⟨by rw [Machine.figures, hslots, Machine.figures], horder, fun _ => by rw [hslots]⟩

theorem KeepsFigures.refl (s : State) : KeepsFigures whole s s := .of_slots rfl rfl

/-- Each slot is changed in its status and its status queue only. -/
theorem KeepsFigures.of_map {g : Slot → Slot} (hslots : t.slots = s.slots.map g) (horder : t.orderCounter = s.orderCounter)
    (hfigure : ∀ x, ((g x).present, (g x).handle, (g x).order) = (x.present, x.handle, x.order))
    (hdata : ∀ x, (g x).data = x.data) : KeepsFigures whole s t := by
  refine ⟨?_, horder, fun _ => ?_⟩
  · rw [Machine.figures, hslots, List.map_map]
    exact List.map_congr_left fun x _ => hfigure x
  · rw [hslots, List.map_map]
    exact List.map_congr_left fun x _ => hdata x

/-- Deactivation collapses status queues at most (R187). -/
theorem KeepsFigures.deactivateOp (s : State) : KeepsFigures whole s (deactivateOp s) := by
  unfold Machine.deactivateOp
  split
  · exact .of_slots rfl rfl
  · exact .of_map rfl rfl (fun _ => rfl) fun _ => rfl

/-- A write-and-persist changes the data of one slot at most (R192). -/
theorem KeepsFigures.persisted (hw : ¬ whole) (s : State) (i off : Nat) (v : Bytes) :
    KeepsFigures whole s (persisted s i off v).1 := by
  obtain ⟨d, st, sc, heq, -, -⟩ := persisted_frame s i off v
  rw [heq]
  exact ⟨map_setSlot (fun x => (x.present, x.handle, x.order)) rfl, rfl, fun h => absurd h hw⟩

end

/-! ## The commands -/

/-- The outcome, where it is a state, keeps the figures. -/
def OutKeepsFigures (whole : Prop) (s : State) (o : Out) : Prop := ∀ t, o = .next t → KeepsFigures whole s t

/-- The operation of a command, where it succeeds, keeps the figures. -/
def RunKeepsFigures {α : Type} (whole : Prop) (s : State) (e : Except Fault (State × α)) : Prop :=
  ∀ t r, e = .ok (t, r) → KeepsFigures whole s t

section
variable {whole : Prop}

theorem RunKeepsFigures.ok {α : Type} {r : α} (h : KeepsFigures whole s t) : RunKeepsFigures whole s (.ok (t, r)) :=
  fun _ _ e => by
    cases e
    exact h

theorem RunKeepsFigures.readOnly (e : Except Fault Bytes) : RunKeepsFigures whole s (readOnly s e) := fun _ _ h => by
  obtain ⟨rfl, -⟩ := readOnly_ok h
  exact .refl _

theorem RunKeepsFigures.nextRandomReply (seq : Byte) (s : State) : RunKeepsFigures whole s (nextRandomReply seq s) :=
  fun _ _ h => by
    obtain ⟨-, rfl, -⟩ := nextRandomReply_ok h
    exact .of_slots rfl rfl

theorem RunKeepsFigures.queryBlockBySlotByte (s : State) (sb blk : Byte) :
    RunKeepsFigures whole s (queryBlockBySlotByte s sb blk) := fun _ _ h => by
  obtain ⟨rfl, -⟩ := queryBlockBySlotByte_ok h
  exact .refl _

theorem RunKeepsFigures.writeBlockBySelector (hw : ¬ whole) (s : State) (sel n : Byte) (v : Bytes) (seq : Byte) :
    RunKeepsFigures whole s (writeBlockBySelector s sel n v seq) := fun _ _ h => by
  obtain ⟨slot, -, hrun⟩ := writeBlockBySelector_ok h
  obtain ⟨off, -, ⟨-, rfl, -⟩ | ⟨i, -, rfl, -⟩⟩ := writeBlockOpA_ok hrun
  · exact .refl _
  · exact .persisted hw s i off v

theorem RunKeepsFigures.writeBlockBySlotByte (hw : ¬ whole) (s : State) (sb blk : Byte) (v : Bytes) :
    RunKeepsFigures whole s (writeBlockBySlotByte s sb blk v) := fun _ _ h => by
  obtain ⟨i, r, -, hrun, -⟩ := writeBlockBySlotByte_ok h
  obtain ⟨off, -, rfl, -⟩ := writeBlockOpB_ok hrun
  exact .persisted hw s i off v

/-- Queueing the reply and answering leave the slots to the operation (R260). -/
theorem OutKeepsFigures.commandA {p : Bytes} {run : State → Except Fault (State × Bytes)}
    (h : RunKeepsFigures whole s (run s)) : OutKeepsFigures whole s (commandA p run s) := fun _ hnext => by
  obtain ⟨-, s1, reply, hrun, -, rfl⟩ := commandA_next hnext
  obtain ⟨hfigures, horder, hdata⟩ := h s1 reply hrun
  exact ⟨hfigures, horder, hdata⟩

/-- Queueing the reply, if there is one, and answering leave the slots to the operation (R300). -/
theorem OutKeepsFigures.commandB {p : Bytes} {run : State → Except Fault (State × Option Bytes)}
    (h : RunKeepsFigures whole s (run s)) : OutKeepsFigures whole s (commandB p run s) := fun _ hnext => by
  obtain ⟨-, s1, ⟨hrun, rfl⟩ | ⟨reply, hrun, -, rfl⟩⟩ := commandB_next hnext
  · obtain ⟨hfigures, horder, hdata⟩ := h s1 none hrun
    exact ⟨hfigures, horder, hdata⟩
  · obtain ⟨hfigures, horder, hdata⟩ := h s1 (some reply) hrun
    exact ⟨hfigures, horder, hdata⟩

theorem blankCommand_keepsFigures (cmd seq : Byte) (tl : FrameTail) (s : State) :
    OutKeepsFigures whole s (blankCommand cmd seq tl s) := .commandA (.ok (.refl s))

end

/-- The two commands that store a block: 0xA3 and 'W' (R278, R311). -/
def IsBlockWrite (i : Instr) : Prop :=
  (∃ seq sel blk v tl, i = .aWriteBlock seq sel blk v tl) ∨ ∃ sb blk v ex, i = .bWriteBlock sb blk v ex

/-- Each of the 24 commands keeps the figures, and their data too unless it stores a block. -/
theorem runCommand_keepsFigures (i : Instr) (s : State) : OutKeepsFigures (¬ IsBlockWrite i) s (runCommand i s) := by
  cases i with unfold runCommand
  | aActivate | aSeed | aPresentFigures => exact .commandA (.ok (.of_slots rfl rfl))
  | aBlank90 | aBlank91 | aBlank92 | aBlank93 | aBlank94 | aBlank95 | aBlank96 | aBlankB5 =>
    exact blankCommand_keepsFigures _ _ _ s
  | aNextRandom seq t => exact .commandA (.nextRandomReply seq s)
  | aQueryBlock | aFigureId => exact .commandA (.readOnly _)
  | aWriteBlock seq sel blk v t =>
    exact .commandA (.writeBlockBySelector (not_not_intro (.inl ⟨_, _, _, _, _, rfl⟩)) s sel blk v seq)
  | bActivate arg ex =>
    refine .commandB (.ok ?_)
    split
    · exact .of_slots rfl rfl
    · exact .deactivateOp s
  | bLedC | bLedJ | bLedL => exact .commandB (.ok (.of_slots rfl rfl))
  | bReady | bStatus | bVersion => exact .commandB (.ok (.refl s))
  | bQueryBlock sb blk ex => exact .commandB (.queryBlockBySlotByte s sb blk)
  | bWriteBlock sb blk v ex =>
    exact .commandB (.writeBlockBySlotByte (not_not_intro (.inr ⟨_, _, _, _, rfl⟩)) s sb blk v)
  | _ => exact fun _ h => by cases h

/-! ## The requests of the port -/

/-- A control transfer keeps the figures, and their data unless it holds 0xA3 or 'W' (R232, R353). -/
theorem exec_controlTransfer_keepsFigures {p : Bytes} (h : exec (.controlTransfer p) s = .next t) :
    KeepsFigures (∀ i, decodeCommand s.cfg p = .ok i → ¬ IsBlockWrite i) s t := by
  rw [exec_controlTransfer] at h
  cases hdecode : decodeCommand s.cfg p with
  | error e =>
    rw [execControlTransfer_of_error hdecode] at h
    obtain rfl := Host.Outcome.next.inj h
    exact .of_slots rfl rfl
  | ok i =>
    rw [execControlTransfer_of_ok hdecode] at h
    obtain ⟨hfigures, horder, hdata⟩ := runCommand_keepsFigures i s t h
    exact ⟨hfigures, horder, fun hread => hdata (hread i rfl)⟩

/-- A status poll moves status queues forward (R322, R323). -/
theorem KeepsFigures.statusPollOp {whole : Prop} (s : State) : KeepsFigures whole s (statusPollOp s) :=
  .of_map rfl rfl (fun x => by simp) advanceSlot_data

/-- A poll takes a queue's entry or moves status queues forward (R282, R320). -/
theorem exec_interruptPoll_keepsFigures {whole : Prop} {p : Bytes} (h : exec (.interruptPoll p) s = .next t) :
    KeepsFigures whole s t := by
  rw [exec_interruptPoll, execInterruptPoll] at h
  split at h
  · obtain rfl := Host.Outcome.next.inj h
    obtain ⟨e, rest, -, heq⟩ | ⟨-, e, rest, -, heq⟩ | ⟨-, -, heq⟩ := pollOpA_cases s
    all_goals rw [heq]; exact .of_slots rfl rfl
  · obtain rfl := Host.Outcome.next.inj h
    obtain ⟨-, heq⟩ | ⟨-, e, rest, -, heq⟩ | ⟨-, -, heq⟩ := pollOpB_cases p s
    · rw [heq]; exact .of_slots rfl rfl
    · rw [heq]; exact .of_slots rfl rfl
    · rw [heq]; exact .statusPollOp s

/-- The requests of the host transfer port that are not refused by their kind (R230, R231). -/
def IsTransferOrCancel (i : Instr) : Prop :=
  (∃ p, i = .controlTransfer p) ∨ (∃ p, i = .interruptPoll p) ∨ i = .cancelTransfer

/-- Of the five ops of the port the last two raise (R101, R231). -/
theorem decodeHost_transferOrCancel (op : Byte) (d : Bytes) (s : State) :
    Yields (fun i => ∀ t, exec i s = .next t → IsTransferOrCancel i) (decodeHost op d) :=
  .ite (.ok fun _ _ => .inl ⟨_, rfl⟩) <|
  .ite (.ok fun _ _ => .inr (.inl ⟨_, rfl⟩)) <|
  .ite (.exactly fun _ _ => .inr (.inr rfl)) <|
  .ite (.ok fun _ h => by cases h) <|
  .ite (.ok fun _ h => by cases h) (.error _)

/-- Settles O57: only a control transfer can change data, and then the command it holds stores a block. -/
theorem hostPortProtection : Obligations.HostPortProtection := by
  intro bytes i s t hdecode hnext
  have hcfg : t.cfg = s.cfg := (configurationIsNotState i s t hnext).1
  obtain ⟨op, d, -, hhost⟩ := decode_port_ok (by decide) hdecode
  have hkind := decodeHost_transferOrCancel op d s i hhost t hnext
  refine ⟨hkind, ?_⟩
  obtain ⟨p, rfl⟩ | ⟨p, rfl⟩ | rfl := hkind
  · obtain ⟨hfigures, horder, hdata⟩ := exec_controlTransfer_keepsFigures hnext
    refine ⟨hfigures, horder, hcfg, ?_⟩
    by_cases hread : ∀ i, decodeCommand s.cfg p = .ok i → ¬ IsBlockWrite i
    · exact .inl (hdata hread)
    · push Not at hread
      obtain ⟨i, hcommand, ⟨seq, sel, blk, v, tl, rfl⟩ | ⟨sb, blk, v, ex, rfl⟩⟩ := hread
      · exact .inr ⟨p, rfl, .inl ⟨seq, sel, blk, v, tl, hcommand⟩⟩
      · exact .inr ⟨p, rfl, .inr ⟨sb, blk, v, ex, hcommand⟩⟩
  · obtain ⟨hfigures, horder, hdata⟩ := exec_interruptPoll_keepsFigures (whole := True) hnext
    exact ⟨hfigures, horder, hcfg, .inl (hdata trivial)⟩
  · obtain rfl := Host.Outcome.next.inj ((exec_cancelTransfer s).symm.trans hnext)
    exact ⟨rfl, rfl, rfl, .inl rfl⟩

end Sys2Proof.Machine
end

section
/-! PROOF. Where each fault comes from (60_exceptions.md R340 to R347): the causes as a relation of instruction, state and
fault (`FaultCause`), and for every instruction a proof that its fault has a cause. A control transfer faults as its command
does (`controlTransferRunsTheCommand`). -/

namespace Sys2Proof.Machine

variable {i : Instr} {s : State} {f : Fault}

/-! ## The causes -/

/-- The causes of a fault, each with the instructions that can raise it and the condition of its rule (R341 to R347). -/
inductive FaultCause (i : Instr) (s : State) : Fault → Prop
  | unseeded (hs : s.prng.seeded = false) (hi : i = .getNext ∨ ∃ seq t, i = .aNextRandom seq t) :
    FaultCause i s .unseededPrng
  | blockA {blk : Byte} (hf : s.cfg.family = .a) (hi : HasBlockA i blk)
      (h : 5 ≤ blk.toNat ∨ s.cfg.bufLenA < blockOffsetA blk + 16) : FaultCause i s (.blockOutOfRange blk.toNat)
  | blockB {blk : Byte} (hf : s.cfg.family = .b) (hi : HasBlockB i blk)
      (h : 64 ≤ blk.toNat ∨ s.cfg.bufLenB < 16 * blk.toNat + 16) : FaultCause i s (.blockOutOfRange blk.toNat)
  | selectorA {x : Byte} (hf : s.cfg.family = .a) (hsel : s.cfg.aSelector = .slotIndex) (hi : HasSelectorA i x)
      (h : s.cfg.nSlotsA ≤ x.toNat) : FaultCause i s (.slotOutOfRange x.toNat)
  | slotA {x : Byte} (hf : s.cfg.family = .a) (hi : HasSlotA i x) (h : s.cfg.nSlotsA ≤ x.toNat) :
    FaultCause i s (.slotOutOfRange x.toNat)
  | slotByteB {sb : Byte} (hf : s.cfg.family = .b) (hi : HasSlotByteB i sb) (h : s.cfg.nSlotsB ≤ sb.toNat % 16) :
    FaultCause i s (.slotOutOfRange (sb.toNat % 16))
  | slotB {x : Byte} (hf : s.cfg.family = .b) (hi : HasSlotB i x) (h : s.cfg.nSlotsB ≤ x.toNat) :
    FaultCause i s (.slotOutOfRange x.toNat)
  | repliesFull (h : ¬ CanReply s) : FaultCause i s (.queueOverflow .tq)
  | notificationsFull (hf : s.cfg.family = .a) (h : hasRoom s.cfg s.notif.length 1 = false) :
    FaultCause i s (.queueOverflow .notif)
  | transitionsFull {k : Nat} (hf : s.cfg.family = .b) (h : hasRoom s.cfg (s.slotAt k).squeue.length 2 = false) :
    FaultCause i s (.queueOverflow (.squeue k))
  | orderExhausted (hi : ∃ slot h blob, i = .loadFigureA slot h blob) (h : s.cfg.orderMax < s.orderCounter) :
    FaultCause i s .orderCounterOverflow
  | transferKind (hi : (∃ p, i = .bulkTransfer p) ∨ ∃ p, i = .isochronousTransfer p) :
    FaultCause i s (.refused .transferKind)
  | createFigureB (hi : ∃ h id, i = .createFigureB h id) : FaultCause i s (.refused .createFigureFamilyB)

/-- A selector that does not resolve is a slot index out of range (R343). -/
theorem FaultCause.of_resolveA {sel : Byte} (hf : s.cfg.family = .a) (hsel : HasSelectorA i sel)
    (h : resolveA s sel = .error f) : FaultCause i s f := by
  obtain ⟨hindex, hle, rfl⟩ := resolveA_error_iff.1 h
  exact .selectorA hf hindex hsel hle

/-- The fault of a Family A block form has the cause of its selector or of its block (R342, R343). -/
theorem FaultCause.of_addressFaultA {sel blk : Byte} (hf : s.cfg.family = .a) (hsel : HasSelectorA i sel)
    (hblk : HasBlockA i blk) (h : AddressFaultA s sel blk f) : FaultCause i s f := by
  obtain hslot | ⟨-, hoff⟩ := h
  · exact .of_resolveA hf hsel hslot
  · obtain ⟨hbad, rfl⟩ := offA_error_iff.1 hoff
    exact .blockA hf hblk hbad

/-- The fault of a Family B block form has the cause of its slot number or of its block (R342, R343). -/
theorem FaultCause.of_addressFaultB {k : Nat} {blk : Byte} (hf : s.cfg.family = .b)
    (hslot : s.cfg.nSlotsB ≤ k → FaultCause i s (.slotOutOfRange k)) (hblk : HasBlockB i blk)
    (h : AddressFaultB s k blk f) : FaultCause i s f := by
  obtain hnumber | ⟨-, hoff⟩ := h
  · obtain ⟨hle, rfl⟩ := slotB_error_iff.1 hnumber
    exact hslot hle
  · obtain ⟨hbad, rfl⟩ := offB_error_iff.1 hoff
    exact .blockB hf hblk hbad

/-! ## Outcomes -/

/-- The outcome, where it is a fault, has a cause. -/
def FaultsWithCause (i : Instr) (s : State) (o : Out) : Prop := ∀ f, o = .fault f → FaultCause i s f

/-- The operation of a command faults with a cause, and where it succeeds leaves the room for its reply as it was. -/
structure RunFaultsWithCause {α : Type} (i : Instr) (s : State) (e : Except Fault (State × α)) : Prop where
  cause : ∀ f, e = .error f → FaultCause i s f
  room : ∀ t r, e = .ok (t, r) → (CanReply t ↔ CanReply s)

theorem FaultsWithCause.next (t : State) : FaultsWithCause i s (.next t) := fun _ h => by cases h

theorem FaultsWithCause.refused (r : Refusal) : FaultsWithCause i s (.refused r) := fun _ h => by cases h

theorem FaultsWithCause.raise (hcause : FaultCause i s f) : FaultsWithCause i s (raise f) := fun _ h => by
  cases h
  exact hcause

theorem FaultsWithCause.ite {c : Prop} [Decidable c] {x y : Out} (hx : c → FaultsWithCause i s x)
    (hy : ¬c → FaultsWithCause i s y) : FaultsWithCause i s (if c then x else y) := by
  split
  · exact hx ‹_›
  · exact hy ‹_›

theorem FaultsWithCause.onFamily {fam : Family} {k : Out} (h : s.cfg.family = fam → FaultsWithCause i s k) :
    FaultsWithCause i s (onFamily fam s k) := .ite h fun _ => .refused _

theorem FaultsWithCause.whenSelected (b : Bool) (t : State) : FaultsWithCause i s (whenSelected b t) :=
  .ite (fun _ => .next _) fun _ => .refused _

theorem FaultsWithCause.returnBytes {e : Except Fault Bytes} (h : ∀ f, e = .error f → FaultCause i s f) :
    FaultsWithCause i s (returnBytes s e) := fun f hfault => h f (returnBytes_fault_iff.1 hfault)

theorem FaultsWithCause.returnWith {e : Except Fault (State × Bytes)} (h : ∀ f, e = .error f → FaultCause i s f) :
    FaultsWithCause i s (returnWith e) := fun f hfault => h f (returnWith_fault_iff.1 hfault)

/-- A request of the registry faults as its operation does. -/
theorem FaultsWithCause.endsWith {e : Except Fault State} (r : Result) (h : ∀ f, e = .error f → FaultCause i s f) :
    FaultsWithCause i s (endsWith r e) := by
  cases e with
  | error g => exact .raise (h g rfl)
  | ok t => exact .next _

theorem pushTq_error_iff {e : Bytes} : pushTq s e = .error f ↔ ¬ CanReply s ∧ f = .queueOverflow .tq := by
  by_cases hroom : CanReply s
  · simp [pushTq_ok.2 ⟨hroom, rfl⟩, hroom]
  · simp [pushTq_of_full rfl rfl hroom, hroom, eq_comm]

/-- A push that the transfer queue has no room for, where it had none before the command (R344). -/
theorem FaultCause.of_pushTq {t : State} {e : Bytes} (hroom : CanReply t ↔ CanReply s) (h : pushTq t e = .error f) :
    FaultCause i s f := by
  obtain ⟨hfull, rfl⟩ := pushTq_error_iff.1 h
  exact .repliesFull (mt hroom.2 hfull)

/-- A Family A command faults as its operation does, or for want of room for its reply (R260). -/
theorem FaultsWithCause.commandA {p : Bytes} {run : State → Except Fault (State × Bytes)}
    (h : s.cfg.family = .a → RunFaultsWithCause i s (run s)) : FaultsWithCause i s (commandA p run s) := by
  refine .onFamily fun hf => ?_
  obtain ⟨hcause, hroom⟩ := h hf
  split
  · exact .raise (hcause _ ‹_›)
  · rename_i s1 reply hrun
    split
    · exact .raise (.of_pushTq (hroom s1 reply hrun) ‹_›)
    · exact .next _

/-- A Family B command faults as its operation does, or for want of room for its reply, if it has one (R300). -/
theorem FaultsWithCause.commandB {p : Bytes} {run : State → Except Fault (State × Option Bytes)}
    (h : s.cfg.family = .b → RunFaultsWithCause i s (run s)) : FaultsWithCause i s (commandB p run s) := by
  refine .onFamily fun hf => ?_
  obtain ⟨hcause, hroom⟩ := h hf
  split
  · exact .raise (hcause _ ‹_›)
  · exact .next _
  · rename_i s1 reply hrun
    split
    · exact .raise (.of_pushTq (hroom s1 (some reply) hrun) ‹_›)
    · exact .next _

/-! ## The operations of the commands -/

theorem RunFaultsWithCause.ok {α : Type} {t : State} {r : α} (h : CanReply t ↔ CanReply s) :
    RunFaultsWithCause i s (.ok (t, r)) :=
  ⟨fun _ e => (by cases e), fun _ _ e => by cases e; exact h⟩

theorem RunFaultsWithCause.readOnly {e : Except Fault Bytes} (h : ∀ f, e = .error f → FaultCause i s f) :
    RunFaultsWithCause i s (readOnly s e) :=
  ⟨fun f he => h f (readOnly_error_iff.1 he), fun t r he => by obtain ⟨rfl, -⟩ := readOnly_ok he; rfl⟩

/-- Only an unseeded generator gives no word (R341). -/
theorem getNextOp_error_iff : getNextOp s = .error f ↔ s.prng.seeded = false ∧ f = .unseededPrng := by
  cases hs : s.prng.seeded <;> simp [getNextOp, hs, eq_comm]

theorem nextRandomReply_faultsWithCause (seq : Byte) (t : FrameTail) (s : State) :
    RunFaultsWithCause (.aNextRandom seq t) s (nextRandomReply seq s) := by
  cases hs : s.prng.seeded with
  | false =>
    rw [nextRandomReply_of_unseeded hs]
    exact ⟨fun f e => by cases e; exact .unseeded hs (.inr ⟨seq, t, rfl⟩), fun _ _ e => by cases e⟩
  | true =>
    rw [nextRandomReply_of_seeded hs]
    exact .ok Iff.rfl

theorem writeBlockBySelector_faultsWithCause {sel blk seq : Byte} {v : Bytes} (hf : s.cfg.family = .a)
    (hsel : HasSelectorA i sel) (hblk : HasBlockA i blk) :
    RunFaultsWithCause i s (writeBlockBySelector s sel blk v seq) := by
  refine ⟨fun f he => .of_addressFaultA hf hsel hblk (writeBlockBySelector_error_iff.1 he), fun t r he => ?_⟩
  obtain ⟨slot, -, hw⟩ := writeBlockBySelector_ok he
  obtain ⟨off, -, ⟨-, rfl, -⟩ | ⟨k, -, rfl, -⟩⟩ := writeBlockOpA_ok hw
  · exact Iff.rfl
  · exact canReply_persisted

theorem queryBlockBySlotByte_faultsWithCause {sb blk : Byte} (hf : s.cfg.family = .b) (hsb : HasSlotByteB i sb)
    (hblk : HasBlockB i blk) : RunFaultsWithCause i s (queryBlockBySlotByte s sb blk) := by
  refine ⟨fun f he => .of_addressFaultB hf (.slotByteB hf hsb) hblk (queryBlockBySlotByte_error_iff.1 he),
    fun t r he => ?_⟩
  obtain ⟨rfl, -⟩ := queryBlockBySlotByte_ok he
  exact Iff.rfl

theorem writeBlockBySlotByte_faultsWithCause {sb blk : Byte} {v : Bytes} (hf : s.cfg.family = .b)
    (hsb : HasSlotByteB i sb) (hblk : HasBlockB i blk) : RunFaultsWithCause i s (writeBlockBySlotByte s sb blk v) := by
  refine ⟨fun f he => .of_addressFaultB hf (.slotByteB hf hsb) hblk (writeBlockBySlotByte_error_iff.1 he),
    fun t r he => ?_⟩
  obtain ⟨k, b, -, hw, -⟩ := writeBlockBySlotByte_ok he
  obtain ⟨off, -, rfl, -⟩ := writeBlockOpB_ok hw
  exact canReply_persisted

theorem blankCommand_faultsWithCause (cmd seq : Byte) (t : FrameTail) (s : State) :
    FaultsWithCause i s (blankCommand cmd seq t s) := .commandA fun _ => .ok Iff.rfl

/-! ## The requests of the registry -/

/-- Two pushes to a status queue fail only where there is no room for both (R344). -/
theorem pushStatus_error_iff {k : Nat} {x y : StatusCode} :
    pushStatus s k x y = .error f ↔
      hasRoom s.cfg (s.slotAt k).squeue.length 2 = false ∧ f = .queueOverflow (.squeue k) := by
  cases hroom : hasRoom s.cfg (s.slotAt k).squeue.length 2 with
  | true => simp [pushStatus_ok.2 ⟨hroom, rfl⟩]
  | false => simp [pushStatus_of_full hroom, eq_comm]

/-- A Family A load fails for want of an order-added, or of room for its notification (R344, R346). -/
theorem loadOpA_error {k h : Nat} {blob : Bytes} (hl : loadOpA s k blob h = .error f) :
    (s.cfg.orderMax < s.orderCounter ∧ f = .orderCounterOverflow) ∨
      (hasRoom s.cfg s.notif.length 1 = false ∧ f = .queueOverflow .notif) := by
  by_cases hfree : OrderFree s k
  · cases hroom : hasRoom s.cfg s.notif.length 1 with
    | true =>
      obtain ⟨t, ht⟩ := exists_loadOpA hfree hroom blob h
      rw [hl] at ht
      cases ht
    | false =>
      rw [loadOpA_of_full hfree hroom] at hl
      exact .inr ⟨rfl, (Except.error.inj hl).symm⟩
  · rw [loadOpA_of_not_free hfree] at hl
    exact .inl ⟨Nat.lt_of_not_le (not_or.1 hfree).2, (Except.error.inj hl).symm⟩

/-- A Family B load fails only where the slot's status queue has no room (R344). -/
theorem loadOpB_error {k h : Nat} {blob : Bytes} (hl : loadOpB s k blob h = .error f) :
    hasRoom s.cfg (s.slotAt k).squeue.length 2 = false ∧ f = .queueOverflow (.squeue k) := by
  have hqueue := slotAt_setSlot_field Slot.squeue (s := closeReplaced s k) (i := k)
    (x := loadedSlot (s.slotAt k) blob h) (by rw [closeReplaced_slotAt]; rfl)
  rw [closeReplaced_slotAt] at hqueue
  rw [loadOpB_eq_pushStatus] at hl
  obtain ⟨hroom, rfl⟩ := pushStatus_error_iff.1 hl
  rw [filledSlot_cfg, filledSlot, hqueue] at hroom
  exact ⟨hroom, rfl⟩

/-- A Family A removal fails only where there is no room for its notification (R344). -/
theorem removeOpA_error {k : Nat} (h : removeOpA s k = .error f) :
    hasRoom s.cfg s.notif.length 1 = false ∧ f = .queueOverflow .notif := by
  cases hroom : hasRoom s.cfg s.notif.length 1 with
  | true =>
    rw [removeOpA_eq hroom] at h
    cases h
  | false =>
    rw [removeOpA_of_full hroom] at h
    exact ⟨rfl, (Except.error.inj h).symm⟩

/-- A Family B removal fails only where the slot's status queue has no room (R344). -/
theorem removeOpB_error {k : Nat} (hk : k < s.slots.length) (h : removeOpB s k = .error f) :
    hasRoom s.cfg (s.slotAt k).squeue.length 2 = false ∧ f = .queueOverflow (.squeue k) := by
  cases hroom : hasRoom s.cfg (s.slotAt k).squeue.length 2 with
  | true =>
    rw [removeOpB_eq hk hroom] at h
    cases h
  | false =>
    rw [removeOpB_of_full hk hroom] at h
    exact ⟨rfl, (Except.error.inj h).symm⟩

theorem execLoadFigureA_faultsWithCause (slot : Byte) (h : Nat) (blob : Bytes) (s : State) :
    FaultsWithCause (.loadFigureA slot h blob) s (execLoadFigureA slot h blob s) := by
  refine .onFamily fun hf => .ite (fun hle => .raise (.slotA hf (.inl ⟨h, blob, rfl⟩) hle)) fun _ =>
    .ite (fun _ => .next _) fun _ => .endsWith _ fun f he => ?_
  obtain ⟨hmax, rfl⟩ | ⟨hroom, rfl⟩ := loadOpA_error he
  · exact .orderExhausted ⟨slot, h, blob, rfl⟩ hmax
  · exact .notificationsFull hf hroom

theorem execLoadFigureB_faultsWithCause (slot : Byte) (h : Nat) (blob : Bytes) (s : State) :
    FaultsWithCause (.loadFigureB slot h blob) s (execLoadFigureB slot h blob s) := by
  refine .onFamily fun hf => .ite (fun hle => .raise (.slotB hf (.inr (.inr (.inl ⟨h, blob, rfl⟩))) hle)) fun _ =>
    .ite (fun _ => .next _) fun _ => .endsWith _ fun f he => ?_
  obtain ⟨hroom, rfl⟩ := loadOpB_error he
  exact .transitionsFull hf hroom

theorem execRemoveFigureA_faultsWithCause (slot : Byte) (s : State) :
    FaultsWithCause (.removeFigureA slot) s (execRemoveFigureA slot s) := by
  refine .onFamily fun hf => .ite (fun hle => .raise (.slotA hf (.inr rfl) hle)) fun _ =>
    .ite (fun _ => .endsWith _ fun f he => ?_) fun _ => .next _
  obtain ⟨hroom, rfl⟩ := removeOpA_error he
  exact .notificationsFull hf hroom

theorem execRemoveFigureB_faultsWithCause (slot : Byte) (s : State) :
    FaultsWithCause (.removeFigureB slot) s (execRemoveFigureB slot s) := by
  refine .onFamily fun hf => .ite (fun hle => .raise (.slotB hf (.inr (.inr (.inr rfl))) hle)) fun _ =>
    .ite (fun hp => .endsWith _ fun f he => ?_) fun _ => .next _
  obtain ⟨hroom, rfl⟩ := removeOpB_error (lt_of_slotAt_present hp) he
  exact .transitionsFull hf hroom

/-! ## The unit calls -/

theorem exec_getNext_faultsWithCause (s : State) : FaultsWithCause .getNext s (exec .getNext s) := by
  rw [exec, execGetNext]
  split
  · rename_i f he
    obtain ⟨hs, rfl⟩ := getNextOp_error_iff.1 he
    exact .raise (.unseeded hs (.inl rfl))
  · exact .next _

theorem exec_queryBlockB_faultsWithCause (slot blk : Byte) (s : State) :
    FaultsWithCause (.queryBlockB slot blk) s (exec (.queryBlockB slot blk) s) :=
  .onFamily fun hf _ hfault =>
    .of_addressFaultB hf (.slotB hf (.inl ⟨blk, rfl⟩)) (.inr (.inr (.inl ⟨slot, rfl⟩)))
      ((exec_queryBlockB_fault_iff hf).1 ((onFamily_eq hf _).trans hfault))

theorem exec_writeBlockB_faultsWithCause (slot blk : Byte) (v : Bytes) (s : State) :
    FaultsWithCause (.writeBlockB slot blk v) s (exec (.writeBlockB slot blk v) s) :=
  .onFamily fun hf _ hfault =>
    .of_addressFaultB hf (.slotB hf (.inr (.inl ⟨blk, v, rfl⟩))) (.inr (.inr (.inr ⟨slot, v, rfl⟩)))
      ((exec_writeBlockB_fault_iff hf).1 ((onFamily_eq hf _).trans hfault))

theorem execInterruptPoll_faultsWithCause (p : Bytes) (s : State) : FaultsWithCause i s (execInterruptPoll p s) := by
  unfold execInterruptPoll
  split
  · exact .next _
  · exact .next _

/-! ## Every instruction -/

/-- The fault of a command has a cause: its operation's, or the full transfer queue. -/
theorem runCommand_faultsWithCause (i : Instr) (s : State) : FaultsWithCause i s (runCommand i s) := by
  cases i with unfold runCommand
  | aActivate | aSeed | aPresentFigures => exact .commandA fun _ => .ok Iff.rfl
  | aNextRandom seq t => exact .commandA fun _ => nextRandomReply_faultsWithCause seq t s
  | aBlank90 | aBlank91 | aBlank92 | aBlank93 | aBlank94 | aBlank95 | aBlank96 | aBlankB5 =>
    exact blankCommand_faultsWithCause _ _ _ s
  | aQueryBlock seq sel blk t =>
    exact .commandA fun hf => .readOnly fun _ he =>
      .of_addressFaultA hf (.inl ⟨seq, blk, t, rfl⟩) (.inl ⟨seq, sel, t, rfl⟩) (queryBlockBySelector_error_iff.1 he)
  | aWriteBlock seq sel blk v t =>
    exact .commandA fun hf => writeBlockBySelector_faultsWithCause hf (.inr (.inl ⟨seq, blk, v, t, rfl⟩))
      (.inr (.inl ⟨seq, sel, v, t, rfl⟩))
  | aFigureId seq sel t =>
    exact .commandA fun hf => .readOnly fun _ he =>
      .of_resolveA hf (.inr (.inr (.inl ⟨seq, t, rfl⟩))) (figureIdentifierBySelector_error_iff.1 he)
  | bActivate arg ex =>
    refine .commandB fun _ => .ok ?_
    split
    · exact Iff.rfl
    · rw [CanReply, deactivateOp_cfg, deactivateOp_tq, CanReply]
  | bLedC | bLedJ | bLedL | bReady | bStatus | bVersion => exact .commandB fun _ => .ok Iff.rfl
  | bQueryBlock sb blk ex =>
    exact .commandB fun hf => queryBlockBySlotByte_faultsWithCause hf (.inl ⟨blk, ex, rfl⟩) (.inl ⟨sb, ex, rfl⟩)
  | bWriteBlock sb blk v ex =>
    exact .commandB fun hf => writeBlockBySlotByte_faultsWithCause hf (.inr ⟨blk, v, ex, rfl⟩)
      (.inr (.inl ⟨sb, v, ex, rfl⟩))
  | _ => exact .refused _

/-- The fault of an instruction other than a control transfer has a cause (R340). -/
theorem exec_faultsWithCause (i : Instr) (s : State) (hi : ∀ p, i ≠ .controlTransfer p) :
    FaultsWithCause i s (exec i s) := by
  cases i with
  | aActivate | aSeed | aNextRandom | aBlank90 | aBlank91 | aBlank92 | aBlank93 | aBlank94 | aBlank95 | aBlank96
  | aPresentFigures | aQueryBlock | aWriteBlock | aFigureId | aBlankB5 | bActivate | bLedC | bLedJ | bLedL | bQueryBlock
  | bReady | bStatus | bVersion | bWriteBlock => exact runCommand_faultsWithCause _ s
  | aPoll | bPoll => exact .onFamily fun _ => .next _
  | aIdlePoll | bAudioEcho | bStatusFrame | bQueuedReply => exact .onFamily fun _ => .whenSelected _ _
  | deriveKey | encryptBlock | decryptBlock | checksum | crc32 | generateSeed | scramble | descramble | findByNumericId
  | findByName | allEntries | isActivated | activate | deactivate | cancelTransfer => exact .next _
  | getNext => exact exec_getNext_faultsWithCause s
  | getPresentFigures seq => exact .onFamily fun _ => .next _
  | queryBlockA sel blk seq =>
    exact .onFamily fun hf => .returnBytes fun _ he =>
      .of_addressFaultA hf (.inr (.inr (.inr (.inl ⟨blk, seq, rfl⟩)))) (.inr (.inr (.inl ⟨sel, seq, rfl⟩)))
        (queryBlockBySelector_error_iff.1 he)
  | queryBlockB slot blk => exact exec_queryBlockB_faultsWithCause slot blk s
  | writeBlockA sel blk v seq =>
    exact .onFamily fun hf => .returnWith fun _ he =>
      .of_addressFaultA hf (.inr (.inr (.inr (.inr (.inl ⟨blk, v, seq, rfl⟩)))))
        (.inr (.inr (.inr ⟨sel, v, seq, rfl⟩))) (writeBlockBySelector_error_iff.1 he)
  | writeBlockB slot blk v => exact exec_writeBlockB_faultsWithCause slot blk v s
  | getFigureIdentifier sel seq =>
    exact .onFamily fun hf => .returnBytes fun _ he =>
      .of_resolveA hf (.inr (.inr (.inr (.inr (.inr ⟨seq, rfl⟩))))) (figureIdentifierBySelector_error_iff.1 he)
  | loadFigureA slot h blob => exact execLoadFigureA_faultsWithCause slot h blob s
  | loadFigureB slot h blob => exact execLoadFigureB_faultsWithCause slot h blob s
  | removeFigureA slot => exact execRemoveFigureA_faultsWithCause slot s
  | removeFigureB slot => exact execRemoveFigureB_faultsWithCause slot s
  | createFigure h id => exact .onFamily fun _ => .next _
  | createFigureB h id => exact .raise (.createFigureB ⟨h, id, rfl⟩)
  | controlTransfer p => exact absurd rfl (hi p)
  | interruptPoll p => exact execInterruptPoll_faultsWithCause p s
  | bulkTransfer p => exact .raise (.transferKind (.inl ⟨p, rfl⟩))
  | isochronousTransfer p => exact .raise (.transferKind (.inr ⟨p, rfl⟩))

/-- Settles O58: what each cause of a fault says is what the table asks of that fault. -/
theorem faultsComeFromTheirRules : Obligations.FaultsComeFromTheirRules := by
  intro i s f hi hfault
  cases exec_faultsWithCause i s hi f hfault with
  | unseeded hs hread => exact ⟨hs, hread⟩
  | @blockA blk hf hblk hbad => exact ⟨blk, rfl, .inl ⟨hf, hblk, hbad⟩⟩
  | @blockB blk hf hblk hbad => exact ⟨blk, rfl, .inr ⟨hf, hblk, hbad⟩⟩
  | @selectorA x hf hindex hsel hle => exact ⟨x, .inl ⟨hf, hle, rfl, .inl ⟨hindex, hsel⟩⟩⟩
  | @slotA x hf hslot hle => exact ⟨x, .inl ⟨hf, hle, rfl, .inr hslot⟩⟩
  | @slotByteB sb hf hslot hle => exact ⟨sb, .inr ⟨hf, hle, .inl ⟨rfl, hslot⟩⟩⟩
  | @slotB x hf hslot hle => exact ⟨x, .inr ⟨hf, hle, .inr ⟨rfl, hslot⟩⟩⟩
  | repliesFull hfull => exact hfull
  | notificationsFull hf hfull => exact ⟨hfull, hf⟩
  | transitionsFull hf hfull => exact ⟨hfull, hf⟩
  | orderExhausted hload hmax => exact ⟨hmax, hload⟩
  | transferKind hkind => exact hkind
  | createFigureB hcreate => exact hcreate

end Sys2Proof.Machine
end

section
/-! PROOF. Delays are annotations (70_reset_and_hazards.md R384): no rule reads a delay or the last result, so an operation
run without delays leaves the state it leaves with them, its delays blanked out. First what walks over the slots or the
blocks reads no delay, then each operation commutes with `State.noDelay`, then each instruction ends in the same outcome
but for delays. Where an operation reads a parameter directly, `rfl` sees that it is no delay. -/

namespace Sys2Proof.Machine

/-! ## Parameters -/

@[simp] theorem noDelays_family (c : Params) : (noDelays c).family = c.family := rfl
@[simp] theorem noDelays_bufLen (c : Params) : (noDelays c).bufLen = c.bufLen := rfl
@[simp] theorem offA_noDelays (c : Params) (n : Byte) : offA (noDelays c) n = offA c n := rfl
@[simp] theorem offB_noDelays (c : Params) (n : Byte) : offB (noDelays c) n = offB c n := rfl
@[simp] theorem decode_noDelays (c : Params) (k : Code) : decode (noDelays c) k = decode c k := rfl

theorem presentBody_noDelays (c : Params) (i : Nat) (l : List Slot) :
    presentBody (noDelays c) i l = presentBody c i l := by
  induction l generalizing i with
  | nil => rfl
  | cons x l ih => simp only [presentBody, ih]; rfl

theorem packWord_noDelays (c : Params) (i : Nat) (l : List Slot) : packWord (noDelays c) i l = packWord c i l := by
  induction l generalizing i with
  | nil => rfl
  | cons x l ih => simp only [packWord, ih]; rfl

theorem statusFrame_noDelays (c : Params) (l : List Slot) (n : Byte) (b : Bool) :
    statusFrame (noDelays c) l n b = statusFrame c l n b := by
  simp only [statusFrame, packStatus, packWord_noDelays]
  rfl

theorem fillBlocks_noDelays (c : Params) (fill : Bytes) (n u : Nat) (blob : Bytes) :
    fillBlocks (noDelays c) fill n u blob = fillBlocks c fill n u blob := by
  induction n generalizing u blob with
  | zero => rfl
  | succ n ih => simp only [fillBlocks, ih]; rfl

theorem figureBlob_noDelays (c : Params) (e : CatalogEntry) : figureBlob (noDelays c) e = figureBlob c e := by
  simp only [figureBlob, fillBlocks_noDelays]
  rfl

/-! ## What the state without its delays holds -/

@[simp] theorem State.noDelay_cfg (s : State) : s.noDelay.cfg = noDelays s.cfg := rfl
@[simp] theorem State.noDelay_tq (s : State) : s.noDelay.tq = s.tq := rfl
@[simp] theorem State.noDelay_inbox (s : State) : s.noDelay.inbox = s.inbox := rfl
@[simp] theorem State.noDelay_notif (s : State) : s.noDelay.notif = s.notif := rfl
@[simp] theorem State.noDelay_slotAt (s : State) (i : Nat) : s.noDelay.slotAt i = s.slotAt i := rfl
@[simp] theorem State.noDelay_memRead (s : State) (i off n : Nat) : s.noDelay.memRead i off n = s.memRead i off n := rfl
@[simp] theorem slotB_noDelay (s : State) (i : Nat) : slotB s.noDelay i = slotB s i := rfl
@[simp] theorem resolveA_noDelay (s : State) (sel : Byte) : resolveA s.noDelay sel = resolveA s sel := rfl
@[simp] theorem resolveB_noDelay (s : State) (sb : Byte) : resolveB s.noDelay sb = resolveB s sb := rfl
@[simp] theorem queryBlockOpB_noDelay (s : State) (i : Nat) (n : Byte) :
    queryBlockOpB s.noDelay i n = queryBlockOpB s i n := rfl

@[simp] theorem State.noDelay_noDelay (s : State) : s.noDelay.noDelay = s.noDelay := by
  have hresult : s.result.noDelay.noDelay = s.result.noDelay := by cases s.result <;> rfl
  simp only [State.noDelay, hresult]
  rfl

theorem getPresentFiguresOp_noDelay (s : State) (seq : Byte) :
    getPresentFiguresOp s.noDelay seq = getPresentFiguresOp s seq :=
  congrArg (aResp s.cfg seq) (presentBody_noDelays s.cfg 0 s.slots)

/-! ## The operations on slots, queues and the storage port -/

theorem setSlot_noDelay (s : State) (i : Nat) (x : Slot) : s.noDelay.setSlot i x = (s.setSlot i x).noDelay := rfl

theorem memWrite_noDelay (s : State) (i off : Nat) (v : Bytes) :
    s.noDelay.memWrite i off v = (s.memWrite i off v).noDelay := rfl

theorem deactivateOp_noDelay (s : State) : deactivateOp s.noDelay = (deactivateOp s).noDelay := by
  cases hf : s.cfg.family with
  | a => simp only [deactivateOp, State.noDelay_cfg, noDelays_family, hf]; rfl
  | b => simp only [deactivateOp, State.noDelay_cfg, noDelays_family, hf]; rfl

theorem closeHandle_noDelay (s : State) (h : Option Nat) : closeHandle s.noDelay h = (closeHandle s h).noDelay := by
  cases h <;> rfl

theorem pushTq_noDelay (s : State) (e : Bytes) : pushTq s.noDelay e = (pushTq s e).map State.noDelay := by
  rw [pushTq, pushTq, apply_ite (Except.map State.noDelay)]
  rfl

theorem pushNotif_noDelay (s : State) (e : Bytes) : pushNotif s.noDelay e = (pushNotif s e).map State.noDelay := by
  rw [pushNotif, pushNotif, apply_ite (Except.map State.noDelay)]
  rfl

theorem pushStatus_noDelay (s : State) (i : Nat) (x y : StatusCode) :
    pushStatus s.noDelay i x y = (pushStatus s i x y).map State.noDelay := by
  rw [pushStatus, pushStatus, apply_ite (Except.map State.noDelay)]
  rfl

theorem storeWrite_noDelay (s : State) (h : Nat) (b : Bytes) :
    storeWrite s.noDelay h b = Prod.map State.noDelay id (storeWrite s h b) := by
  rw [storeWrite, storeWrite, apply_ite (Prod.map State.noDelay id)]
  rfl

theorem persisted_noDelay (s : State) (i off : Nat) (v : Bytes) :
    persisted s.noDelay i off v = Prod.map State.noDelay id (persisted s i off v) := by
  cases hp : (s.slotAt i).present with
  | false => simp only [persisted, State.noDelay_slotAt, hp]; rfl
  | true =>
    cases hh : (s.slotAt i).handle with
    | none => simp only [persisted, State.noDelay_slotAt, hp, hh]; rfl
    | some h =>
      simp only [persisted, State.noDelay_slotAt, hp, hh, if_true, memWrite_noDelay, storeWrite_noDelay,
        State.noDelay_memRead, State.noDelay_cfg, noDelays_bufLen]
      obtain ⟨t, ok⟩ := storeWrite (s.memWrite i off v) h ((s.memWrite i off v).memRead i 0 s.cfg.bufLen)
      cases ok
      · rfl
      · rfl

/-! ## The operations of the registry -/

/-- The operation's outcome with the delays of its state blanked out. -/
def runNoDelay {α : Type} : Except Fault (State × α) → Except Fault (State × α) := Except.map (Prod.map State.noDelay id)

theorem writeBlockOpA_noDelay (s : State) (slot : Option Nat) (n : Byte) (v : Bytes) (seq : Byte) :
    writeBlockOpA s.noDelay slot n v seq = runNoDelay (writeBlockOpA s slot n v seq) := by
  cases ho : offA s.cfg n with
  | error f => simp only [writeBlockOpA, State.noDelay_cfg, offA_noDelays, ho]; rfl
  | ok off =>
    cases slot with
    | none => simp only [writeBlockOpA, State.noDelay_cfg, offA_noDelays, ho]; rfl
    | some i => simp only [writeBlockOpA, State.noDelay_cfg, offA_noDelays, ho, persisted_noDelay]; rfl

theorem writeBlockOpB_noDelay (s : State) (i : Nat) (n : Byte) (v : Bytes) :
    writeBlockOpB s.noDelay i n v = runNoDelay (writeBlockOpB s i n v) := by
  cases ho : offB s.cfg n with
  | error f => simp only [writeBlockOpB, State.noDelay_cfg, offB_noDelays, ho]; rfl
  | ok off => simp only [writeBlockOpB, State.noDelay_cfg, offB_noDelays, ho, persisted_noDelay]; rfl

theorem writeBlockBySelector_noDelay (s : State) (sel n : Byte) (v : Bytes) (seq : Byte) :
    writeBlockBySelector s.noDelay sel n v seq = runNoDelay (writeBlockBySelector s sel n v seq) := by
  cases hr : resolveA s sel with
  | error f => simp only [writeBlockBySelector, resolveA_noDelay, hr]; rfl
  | ok slot => simp only [writeBlockBySelector, resolveA_noDelay, hr, writeBlockOpA_noDelay]

theorem queryBlockBySlotByte_noDelay (s : State) (sb blk : Byte) :
    queryBlockBySlotByte s.noDelay sb blk = runNoDelay (queryBlockBySlotByte s sb blk) := by
  cases hr : resolveB s sb with
  | error f => simp only [queryBlockBySlotByte, resolveB_noDelay, hr]; rfl
  | ok i =>
    simp only [queryBlockBySlotByte, resolveB_noDelay, hr, queryBlockOpB_noDelay]
    cases queryBlockOpB s i blk <;> rfl

theorem writeBlockBySlotByte_noDelay (s : State) (sb blk : Byte) (v : Bytes) :
    writeBlockBySlotByte s.noDelay sb blk v = runNoDelay (writeBlockBySlotByte s sb blk v) := by
  cases hr : resolveB s sb with
  | error f => simp only [writeBlockBySlotByte, resolveB_noDelay, hr]; rfl
  | ok i =>
    simp only [writeBlockBySlotByte, resolveB_noDelay, hr, writeBlockOpB_noDelay]
    cases writeBlockOpB s i blk v <;> rfl

theorem filledSlot_noDelay (s : State) (i : Nat) (blob : Bytes) (h : Nat) :
    filledSlot s.noDelay i blob h = (filledSlot s i blob h).noDelay := by
  rw [filledSlot_eq, filledSlot_eq]
  rfl

theorem assignOrder_noDelay (s : State) (i : Nat) : assignOrder s.noDelay i = (assignOrder s i).map State.noDelay := by
  cases ho : (s.slotAt i).order with
  | some o => simp only [assignOrder, State.noDelay_slotAt, ho]; rfl
  | none =>
    simp only [assignOrder, State.noDelay_slotAt, ho, apply_ite (Except.map State.noDelay)]
    rfl

theorem resetOrderWhenEmpty_noDelay (s : State) : resetOrderWhenEmpty s.noDelay = (resetOrderWhenEmpty s).noDelay := by
  rw [resetOrderWhenEmpty_eq, resetOrderWhenEmpty_eq]
  rfl

theorem loadOpA_noDelay (s : State) (i : Nat) (blob : Bytes) (h : Nat) :
    loadOpA s.noDelay i blob h = (loadOpA s i blob h).map State.noDelay := by
  by_cases hfree : OrderFree s i
  · obtain ⟨t, hassign, -⟩ := assignOrder_of_free (orderFree_filledSlot (blob := blob) (h := h).2 hfree)
    have hassign' := assignOrder_noDelay (filledSlot s i blob h) i
    rw [hassign, ← filledSlot_noDelay] at hassign'
    rw [loadOpA_of_assignOrder hassign, loadOpA_of_assignOrder hassign']
    exact pushNotif_noDelay t _
  · rw [loadOpA_of_not_free hfree, loadOpA_of_not_free (s := s.noDelay) hfree]
    rfl

theorem loadOpB_noDelay (s : State) (i : Nat) (blob : Bytes) (h : Nat) :
    loadOpB s.noDelay i blob h = (loadOpB s i blob h).map State.noDelay := by
  rw [loadOpB_eq_pushStatus, loadOpB_eq_pushStatus, filledSlot_noDelay, pushStatus_noDelay]

theorem removeOpA_noDelay (s : State) (i : Nat) : removeOpA s.noDelay i = (removeOpA s i).map State.noDelay := by
  cases hroom : hasRoom s.cfg s.notif.length 1 with
  | false =>
    rw [removeOpA_of_full hroom, removeOpA_of_full (s := s.noDelay) hroom]
    rfl
  | true =>
    rw [removeOpA_eq hroom, removeOpA_eq (s := s.noDelay) hroom]
    exact congrArg Except.ok (resetOrderWhenEmpty_noDelay (removedA s i))

theorem removeOpB_noDelay (s : State) (i : Nat) : removeOpB s.noDelay i = (removeOpB s i).map State.noDelay := by
  rw [removeOpB_eq_pushStatus, removeOpB_eq_pushStatus, State.noDelay_slotAt, closeHandle_noDelay, setSlot_noDelay,
    pushStatus_noDelay]

theorem createFigureOp_noDelay (s : State) (h : Nat) (id : U16) :
    (createFigureOp s.noDelay h id).noDelay = (createFigureOp s h id).noDelay := by
  cases he : entryById s.cfg.catalog id with
  | none =>
    rw [createFigureOp_of_none he, createFigureOp_of_none (s := s.noDelay) he]
    rfl
  | some e =>
    cases ha : s.storeAnswer with
    | true =>
      rw [createFigureOp_of_ok he ha, createFigureOp_of_ok (s := s.noDelay) he ha, State.noDelay_cfg,
        figureBlob_noDelays]
      rfl
    | false =>
      rw [createFigureOp_of_failed he ha, createFigureOp_of_failed (s := s.noDelay) he ha, State.noDelay_cfg,
        figureBlob_noDelays]
      rfl

/-! ## The other operations -/

theorem getNextOp_noDelay (s : State) : getNextOp s.noDelay = runNoDelay (getNextOp s) := by
  rw [getNextOp, getNextOp, runNoDelay, apply_ite (Except.map (Prod.map State.noDelay id))]
  rfl

theorem nextRandomReply_noDelay (seq : Byte) (s : State) :
    nextRandomReply seq s.noDelay = runNoDelay (nextRandomReply seq s) := by
  cases hs : s.prng.seeded with
  | false =>
    rw [nextRandomReply_of_unseeded hs, nextRandomReply_of_unseeded (s := s.noDelay) hs]
    rfl
  | true =>
    rw [nextRandomReply_of_seeded hs, nextRandomReply_of_seeded (s := s.noDelay) hs]
    rfl

theorem readOnly_noDelay (s : State) (e : Except Fault Bytes) : readOnly s.noDelay e = runNoDelay (readOnly s e) := by
  cases e <;> rfl

theorem statusPollOp_noDelay (s : State) : (statusPollOp s.noDelay).noDelay = (statusPollOp s).noDelay := by
  rw [statusPollOp, State.noDelay_cfg, statusFrame_noDelays]
  rfl

theorem pollOpA_noDelay (s : State) : (pollOpA s.noDelay).noDelay = (pollOpA s).noDelay := by
  cases htq : s.tq with
  | cons e rest => simp only [pollOpA, State.noDelay_tq, htq]; rfl
  | nil =>
    cases hn : s.notif with
    | cons e rest => simp only [pollOpA, State.noDelay_tq, htq, State.noDelay_notif, hn]; rfl
    | nil => simp only [pollOpA, State.noDelay_tq, htq, State.noDelay_notif, hn]; rfl

theorem pollOpB_noDelay (p : Bytes) (s : State) : (pollOpB p s.noDelay).noDelay = (pollOpB p s).noDelay := by
  by_cases hp : 32 < p.length
  · simp only [pollOpB, if_pos hp]; rfl
  · cases htq : s.tq with
    | cons e rest => simp only [pollOpB, if_neg hp, State.noDelay_tq, htq]; rfl
    | nil =>
      simp only [pollOpB, if_neg hp, State.noDelay_tq, htq]
      exact statusPollOp_noDelay s

/-! ## Outcomes -/

/-- The outcomes are the same but for delays. -/
def SameButDelays (o o' : Out) : Prop := outNoDelay o = outNoDelay o'

theorem SameButDelays.refl (o : Out) : SameButDelays o o := Eq.refl (outNoDelay o)

theorem SameButDelays.next {t t' : State} (h : t.noDelay = t'.noDelay) : SameButDelays (.next t) (.next t') :=
  congrArg Host.Outcome.next h

theorem SameButDelays.ends (s : State) (r : Result) :
    SameButDelays (.next (s.noDelay.ends r)) (.next (s.ends r)) := .next rfl

section
variable {s : State} {o o' u u' : Out}

theorem SameButDelays.ite {c : Prop} [Decidable c] (h : SameButDelays o o') (hu : SameButDelays u u') :
    SameButDelays (if c then o else u) (if c then o' else u') := by
  split
  · exact h
  · exact hu

theorem SameButDelays.onFamily {f : Family} (h : SameButDelays o o') :
    SameButDelays (onFamily f s.noDelay o) (onFamily f s o') := .ite h (.refl _)

theorem SameButDelays.whenSelected {b : Bool} {t t' : State} (h : t.noDelay = t'.noDelay) :
    SameButDelays (whenSelected b t) (whenSelected b t') := .ite (.next h) (.refl _)

theorem SameButDelays.returnBytes (s : State) (e : Except Fault Bytes) :
    SameButDelays (returnBytes s.noDelay e) (returnBytes s e) := by
  cases e with
  | error f => exact .refl _
  | ok b => exact .ends s _

theorem SameButDelays.returnWith {e e' : Except Fault (State × Bytes)} (h : e' = runNoDelay e) :
    SameButDelays (returnWith e') (returnWith e) := by
  subst h
  cases e with
  | error f => exact .refl _
  | ok x => exact .ends x.1 _

theorem SameButDelays.endsWith {e e' : Except Fault State} {r r' : Result} (h : e' = e.map State.noDelay)
    (hr : r'.noDelay = r.noDelay) : SameButDelays (endsWith r' e') (endsWith r e) := by
  subst h
  cases e with
  | error f => exact .refl _
  | ok t => exact .next (congrArg (fun x => { t.noDelay with result := x }) hr)

/-- Queueing a reply and answering a payload end alike, whatever the delays (R234, R237). -/
theorem SameButDelays.replied (t : State) (p reply : Bytes) (d d' : Nat) :
    SameButDelays (Machine.endsWith (.triple p p.length d) (pushTq t.noDelay reply))
      (Machine.endsWith (.triple p p.length d') (pushTq t reply)) := .endsWith (pushTq_noDelay t reply) rfl

/-- A Family A command queues the same reply and echoes the same payload (R260). -/
theorem SameButDelays.commandA {p : Bytes} {run : State → Except Fault (State × Bytes)}
    (h : run s.noDelay = runNoDelay (run s)) : SameButDelays (commandA p run s.noDelay) (commandA p run s) := by
  refine .onFamily ?_
  rw [h]
  cases run s with
  | error f => exact .refl _
  | ok x => exact .replied x.1 p x.2 s.noDelay.cfg.dAEcho s.cfg.dAEcho

/-- A Family B command queues the same reply, if it has one, and answers the same payload (R300). -/
theorem SameButDelays.commandB {p : Bytes} {run : State → Except Fault (State × Option Bytes)}
    (h : run s.noDelay = runNoDelay (run s)) : SameButDelays (commandB p run s.noDelay) (commandB p run s) := by
  refine .onFamily ?_
  rw [h]
  cases run s with
  | error f => exact .refl _
  | ok x =>
    obtain ⟨t, none | reply⟩ := x
    · exact .next rfl
    · exact .replied t p reply s.noDelay.cfg.dBCtrl s.cfg.dBCtrl

end

theorem blankCommand_sameButDelays (cmd seq : Byte) (t : FrameTail) (s : State) :
    SameButDelays (blankCommand cmd seq t s.noDelay) (blankCommand cmd seq t s) := .commandA rfl

/-! ## Every instruction -/

theorem runCommand_sameButDelays (i : Instr) (s : State) : SameButDelays (runCommand i s.noDelay) (runCommand i s) := by
  cases i with unfold runCommand
  | aActivate | aSeed => exact .commandA rfl
  | aNextRandom seq t => exact .commandA (nextRandomReply_noDelay seq s)
  | aBlank90 | aBlank91 | aBlank92 | aBlank93 | aBlank94 | aBlank95 | aBlank96 | aBlankB5 =>
    exact blankCommand_sameButDelays _ _ _ s
  | aPresentFigures seq t =>
    exact .commandA (congrArg (fun reply => Except.ok (s.noDelay, reply)) (getPresentFiguresOp_noDelay s seq))
  | aQueryBlock | aFigureId => exact .commandA (readOnly_noDelay s _)
  | aWriteBlock seq sel blk v t => exact .commandA (writeBlockBySelector_noDelay s sel blk v seq)
  | bActivate arg ex =>
    refine .commandB ?_
    by_cases harg : arg ≠ 0x00#8
    · simp only [if_pos harg]; rfl
    · simp only [if_neg harg, deactivateOp_noDelay]; rfl
  | bLedC | bLedJ | bLedL | bReady | bStatus | bVersion => exact .commandB rfl
  | bQueryBlock sb blk ex => exact .commandB (queryBlockBySlotByte_noDelay s sb blk)
  | bWriteBlock sb blk v ex => exact .commandB (writeBlockBySlotByte_noDelay s sb blk v)
  | _ => exact .refl _

/-- A command of the dispatcher ends as its rule says (R260, R300). -/
theorem exec_sameButDelays_of_runCommand {i : Instr} (h : ∀ s, runCommand i s = exec i s) (s : State) :
    SameButDelays (exec i s.noDelay) (exec i s) := by
  rw [← h, ← h]
  exact runCommand_sameButDelays i s

theorem execControlTransfer_sameButDelays (p : Bytes) (s : State) :
    SameButDelays (execControlTransfer p s.noDelay) (execControlTransfer p s) := by
  cases hd : decodeCommand s.cfg p with
  | error e =>
    rw [execControlTransfer_of_error hd, execControlTransfer_of_error (s := s.noDelay) hd]
    exact .ends s .noResponse
  | ok i =>
    rw [execControlTransfer_of_ok hd, execControlTransfer_of_ok (s := s.noDelay) hd]
    exact runCommand_sameButDelays i s

theorem execInterruptPoll_sameButDelays (p : Bytes) (s : State) :
    SameButDelays (execInterruptPoll p s.noDelay) (execInterruptPoll p s) := by
  cases hf : s.cfg.family with
  | a => simp only [execInterruptPoll, State.noDelay_cfg, noDelays_family, hf]; exact .next (pollOpA_noDelay s)
  | b => simp only [execInterruptPoll, State.noDelay_cfg, noDelays_family, hf]; exact .next (pollOpB_noDelay p s)

theorem execGetNext_sameButDelays (s : State) : SameButDelays (execGetNext s.noDelay) (execGetNext s) := by
  rw [execGetNext, execGetNext, getNextOp_noDelay]
  cases getNextOp s with
  | error f => exact .refl _
  | ok x => exact .ends x.1 (.word x.2)

/-- A unit call of Family B resolves the same slot number, or raises the same fault (R195). -/
theorem execQueryBlockB_sameButDelays (slot blk : Byte) (s : State) :
    SameButDelays (execQueryBlockB slot blk s.noDelay) (execQueryBlockB slot blk s) := by
  refine .onFamily ?_
  rw [slotB_noDelay]
  cases slotB s slot.toNat with
  | error f => exact .refl _
  | ok i => exact .returnBytes s _

theorem execWriteBlockB_sameButDelays (slot blk : Byte) (v : Bytes) (s : State) :
    SameButDelays (execWriteBlockB slot blk v s.noDelay) (execWriteBlockB slot blk v s) := by
  refine .onFamily ?_
  rw [slotB_noDelay]
  cases slotB s slot.toNat with
  | error f => exact .refl _
  | ok i => exact .returnWith (writeBlockOpB_noDelay s i blk v)

/-- Every instruction ends in the same outcome but for delays. -/
theorem exec_sameButDelays (i : Instr) (s : State) : SameButDelays (exec i s.noDelay) (exec i s) := by
  cases i with
  | aActivate | aSeed | aNextRandom | aBlank90 | aBlank91 | aBlank92 | aBlank93 | aBlank94 | aBlank95 | aBlank96
  | aPresentFigures | aQueryBlock | aWriteBlock | aFigureId | aBlankB5 | bActivate | bLedC | bLedJ | bLedL | bQueryBlock
  | bReady | bStatus | bVersion | bWriteBlock =>
    exact exec_sameButDelays_of_runCommand (fun _ => rfl) s
  | aPoll p => exact .onFamily (.next (pollOpA_noDelay s))
  | aIdlePoll p => exact .onFamily (.whenSelected rfl)
  | bPoll p => exact .onFamily (.next (pollOpB_noDelay p s))
  | bAudioEcho p => exact .onFamily (.whenSelected rfl)
  | bStatusFrame p => exact .onFamily (.whenSelected (statusPollOp_noDelay s))
  | bQueuedReply p => exact .onFamily (.whenSelected (pollOpB_noDelay p s))
  | deriveKey | encryptBlock | decryptBlock | checksum | crc32 | scramble | descramble | findByNumericId | findByName
  | allEntries | isActivated | cancelTransfer => exact .ends s _
  | generateSeed seed => exact .ends (generateSeedOp seed s) .done
  | getNext => exact execGetNext_sameButDelays s
  | activate => exact .ends (activateOp s) .done
  | deactivate =>
    rw [exec_deactivate, exec_deactivate, deactivateOp_noDelay]
    exact .ends _ _
  | getPresentFigures seq =>
    refine .onFamily ?_
    rw [getPresentFiguresOp_noDelay]
    exact .ends s _
  | queryBlockA | getFigureIdentifier => exact .onFamily (.returnBytes s _)
  | queryBlockB slot blk => exact execQueryBlockB_sameButDelays slot blk s
  | writeBlockA sel blk v seq => exact .onFamily (.returnWith (writeBlockBySelector_noDelay s sel blk v seq))
  | writeBlockB slot blk v => exact execWriteBlockB_sameButDelays slot blk v s
  | loadFigureA slot h blob =>
    exact .onFamily (.ite (.refl _) (.ite (.ends s _) (.endsWith (loadOpA_noDelay s slot.toNat blob h) rfl)))
  | loadFigureB slot h blob =>
    exact .onFamily (.ite (.refl _) (.ite (.ends s _) (.endsWith (loadOpB_noDelay s slot.toNat blob h) rfl)))
  | removeFigureA slot =>
    exact .onFamily (.ite (.refl _) (.ite (.endsWith (removeOpA_noDelay s slot.toNat) rfl) (.ends s _)))
  | removeFigureB slot =>
    exact .onFamily (.ite (.refl _) (.ite (.endsWith (removeOpB_noDelay s slot.toNat) rfl) (.ends s _)))
  | createFigure h id => exact .onFamily (.next (createFigureOp_noDelay s h id))
  | controlTransfer p => exact execControlTransfer_sameButDelays p s
  | interruptPoll p => exact execInterruptPoll_sameButDelays p s
  | createFigureB | bulkTransfer | isochronousTransfer => exact .refl _

/-! ## Every step -/

theorem rejected_sameButDelays (k : Code) (why : Reject) (s : State) :
    SameButDelays (rejected k why s.noDelay) (rejected k why s) := .ite (.ends s .noResponse) (.refl _)

theorem runRequest_sameButDelays (r : Request) (s : State) :
    SameButDelays (runRequest r s.noDelay) (runRequest r s) := by
  rw [runRequest, runRequest, State.noDelay_cfg, decode_noDelays]
  cases decode s.cfg r.code with
  | error why => exact rejected_sameButDelays r.code why s
  | ok i => exact exec_sameButDelays i s

/-- Settles O60: both machines accept the same request, which decodes to the same instruction, which ends in the same
outcome but for delays. -/
theorem delaysAreAnnotations : Obligations.DelaysAreAnnotations := by
  intro s
  cases hin : s.inbox with
  | nil => simp only [step, State.noDelay_inbox, hin, outNoDelay, State.noDelay_noDelay]
  | cons r rest =>
    simp only [step, State.noDelay_inbox, hin]
    exact (runRequest_sameButDelays r (s.accept r rest)).symm

end Sys2Proof.Machine
end
